-- ==== Sys2Proof/Word.lean ====
section
/-! DEFINITION. The word, the byte and the raw 128-bit record (00_scope.md R3, R4; 30_encoding.md R30). -/

namespace Sys2Proof

/-- An unsigned 32-bit word; bit 0 is the least significant (R3). -/
abbrev Word := BitVec 32

/-- One byte of the 16-byte image of a record (20_memory.md R21). -/
abbrev Byte := BitVec 8

/-- A raw record: always exactly four 32-bit words, `W[0]` to `W[3]` (R4, R30). Equality is equality of all
128 bits (40_framework.md R61). -/
structure Raw where
  w0 : Word
  w1 : Word
  w2 : Word
  w3 : Word
  deriving DecidableEq, Repr

end Sys2Proof
end

