-- ==== Sys2Proof/Syntax.lean ====
section
/-! DEFINITION. The syntax of the codec: the names of the record types and of the completion codes, the decoded
record of each type (every one of its 128 bits in a named field), the operations the host can request, and `Instr`,
one constructor per row of spec/opcode_table.json. -/

namespace Sys2Proof

/-- The 33 type names of the default TYPE_TABLE (30_encoding.md R33). A table may leave names out, and no admissible table
has more than 33, eight with tags in 32 to 39 and one for each of the tags 1 to 25 (log 20). -/
inductive RecType where
  | normal
  | setupStage
  | dataStage
  | statusStage
  | isoch
  | link
  | eventData
  | noopTransfer
  | enableSlot
  | disableSlot
  | addressDevice
  | configureEndpoint
  | evaluateContext
  | resetEndpoint
  | stopEndpoint
  | setTrDequeuePointer
  | resetDevice
  | forceEvent
  | negotiateBandwidth
  | setLatencyToleranceValue
  | getPortBandwidth
  | forceHeader
  | noopCommand
  | getExtendedProperty
  | setExtendedProperty
  | transferEvent
  | commandCompletion
  | portStatusChange
  | bandwidthRequest
  | doorbell
  | hostController
  | deviceNotification
  | mfindexWrap
  deriving DecidableEq, Repr

/-- Every type name, in the order of the table of R33. -/
def RecType.all : List RecType :=
  [.normal, .setupStage, .dataStage, .statusStage, .isoch, .link,
   .eventData, .noopTransfer, .enableSlot, .disableSlot, .addressDevice, .configureEndpoint,
   .evaluateContext, .resetEndpoint, .stopEndpoint, .setTrDequeuePointer, .resetDevice, .forceEvent,
   .negotiateBandwidth, .setLatencyToleranceValue, .getPortBandwidth, .forceHeader, .noopCommand, .getExtendedProperty,
   .setExtendedProperty, .transferEvent, .commandCompletion, .portStatusChange, .bandwidthRequest, .doorbell,
   .hostController, .deviceNotification, .mfindexWrap]

/-- The eight event variants (00_scope.md section 4, `EVENT_ORDER`). -/
inductive EventVariant where
  | transferEvent
  | commandCompletion
  | portStatusChange
  | bandwidthRequest
  | doorbell
  | hostController
  | deviceNotification
  | mfindexWrap
  deriving DecidableEq, Repr

/-- The type name of an event variant. -/
def EventVariant.toType : EventVariant → RecType
  | .transferEvent => .transferEvent
  | .commandCompletion => .commandCompletion
  | .portStatusChange => .portStatusChange
  | .bandwidthRequest => .bandwidthRequest
  | .doorbell => .doorbell
  | .hostController => .hostController
  | .deviceNotification => .deviceNotification
  | .mfindexWrap => .mfindexWrap

/-- The event variant a type name is, if it is one (10_state.md R19: the name is the host's static knowledge). -/
def RecType.event? : RecType → Option EventVariant
  | .normal => none
  | .setupStage => none
  | .dataStage => none
  | .statusStage => none
  | .isoch => none
  | .link => none
  | .eventData => none
  | .noopTransfer => none
  | .enableSlot => none
  | .disableSlot => none
  | .addressDevice => none
  | .configureEndpoint => none
  | .evaluateContext => none
  | .resetEndpoint => none
  | .stopEndpoint => none
  | .setTrDequeuePointer => none
  | .resetDevice => none
  | .forceEvent => none
  | .negotiateBandwidth => none
  | .setLatencyToleranceValue => none
  | .getPortBandwidth => none
  | .forceHeader => none
  | .noopCommand => none
  | .getExtendedProperty => none
  | .setExtendedProperty => none
  | .transferEvent => some .transferEvent
  | .commandCompletion => some .commandCompletion
  | .portStatusChange => some .portStatusChange
  | .bandwidthRequest => some .bandwidthRequest
  | .doorbell => some .doorbell
  | .hostController => some .hostController
  | .deviceNotification => some .deviceNotification
  | .mfindexWrap => some .mfindexWrap

/-- Completion-code names (43_completion_code.md R140): those of the default CC_TABLE, each its own constructor, and any
other name a table may hold, since the table can be replaced wholesale (93_implementation_defined.md G2; log 20). -/
inductive CompletionCode where
  | invalid
  | success
  | dataBufferError
  | babbleDetectedError
  | usbTransactionError
  | trbError
  | stallError
  | resourceError
  | bandwidthError
  | noSlotsAvailableError
  | invalidStreamTypeError
  | slotNotEnabledError
  | endpointNotEnabledError
  | shortPacket
  | ringUnderrun
  | ringOverrun
  | vfEventRingFullError
  | parameterError
  | bandwidthOverrunError
  | contextStateError
  | noPingResponseError
  | eventRingFullError
  | incompatibleDeviceError
  | missedServiceError
  | commandRingStopped
  | commandAborted
  | stopped
  | stoppedLengthInvalid
  | stoppedShortPacket
  | maxExitLatencyTooLargeError
  | isochBufferOverrun
  | eventLostError
  | undefinedError
  | invalidStreamIdError
  | secondaryBandwidthError
  | splitTransactionError
  /-- a name that the default table does not hold -/
  | other (name : String)
  deriving DecidableEq, Repr

/-! The decoded records. Each structure partitions the 128 bits of its format: a field the format names, the cycle bit
`c`, the tag `tag`, a reserved range `rsvd…`, an unnamed range `unnamed…` (30_encoding.md R47) or a range the spec does
not specify `unspec…` (R43, 44_link_contracts.md R156). A record is a value with no proof of validity (10_state.md R19,
41_validate_classify.md R70), so the tag and the reserved ranges are fields like the others. -/

/-- A record of one of the 24 types whose layout beyond the tag and the cycle bit is not specified (R31, R156). -/
structure TagOnly where
  /-- `W[0]` -/
  unspecW0 : Word
  /-- `W[1]` -/
  unspecW1 : Word
  /-- `W[2]` -/
  unspecW2 : Word
  /-- `W[3][31:16]` -/
  unspec31_16 : BitVec 16
  /-- `W[3][15:10]` -/
  tag : BitVec 6
  /-- `W[3][9:1]` -/
  unspec9_1 : BitVec 9
  /-- `W[3][0]` -/
  c : BitVec 1
  deriving DecidableEq, Repr

/-- A Link record (R43). -/
structure LinkRec where
  /-- `W[1] || W[0]` -/
  ringSegmentPointer : BitVec 64
  /-- `W[2]` -/
  unspecW2 : Word
  /-- `W[3][31:16]` -/
  unspec31_16 : BitVec 16
  /-- `W[3][15:10]` -/
  tag : BitVec 6
  /-- `W[3][9:1]` -/
  unspec9_1 : BitVec 9
  /-- `W[3][0]` -/
  c : BitVec 1
  deriving DecidableEq, Repr

/-- A record of TransferEvent (R35). -/
structure TransferEventRec where
  /-- `W[1] || W[0]` -/
  trbPointer : BitVec 64
  /-- `W[2][31:24]` -/
  completionCode : BitVec 8
  /-- `W[2][23:0]` -/
  trbTransferLength : BitVec 24
  /-- `W[3][31:24]` -/
  slotId : BitVec 8
  /-- `W[3][23:21]` -/
  rsvd23_21 : BitVec 3
  /-- `W[3][20:16]` -/
  endpointId : BitVec 5
  /-- `W[3][15:10]` -/
  tag : BitVec 6
  /-- `W[3][9:3]` -/
  rsvd9_3 : BitVec 7
  /-- `W[3][2]` -/
  eventData : BitVec 1
  /-- `W[3][1]` -/
  rsvd1 : BitVec 1
  /-- `W[3][0]` -/
  c : BitVec 1
  deriving DecidableEq, Repr

/-- A record of CommandCompletion (R36); the low four bits of the pointer are also a reserved range. -/
structure CommandCompletionRec where
  /-- `W[1] || W[0]` -/
  commandTrbPointer : BitVec 64
  /-- `W[2][31:24]` -/
  completionCode : BitVec 8
  /-- `W[2][23:0]` -/
  commandCompletionParameter : BitVec 24
  /-- `W[3][31:24]` -/
  slotId : BitVec 8
  /-- `W[3][23:16]` -/
  vfId : BitVec 8
  /-- `W[3][15:10]` -/
  tag : BitVec 6
  /-- `W[3][9:1]` -/
  rsvd9_1 : BitVec 9
  /-- `W[3][0]` -/
  c : BitVec 1
  deriving DecidableEq, Repr

/-- A record of PortStatusChange (R37). -/
structure PortStatusChangeRec where
  /-- `W[0][31:24]` -/
  portId : BitVec 8
  /-- `W[0][23:0]` -/
  rsvdW0 : BitVec 24
  /-- `W[1]` -/
  rsvdW1 : Word
  /-- `W[2][31:24]` -/
  completionCode : BitVec 8
  /-- `W[2][23:0]` -/
  rsvdW2 : BitVec 24
  /-- `W[3][31:16]` -/
  rsvd31_16 : BitVec 16
  /-- `W[3][15:10]` -/
  tag : BitVec 6
  /-- `W[3][9:1]` -/
  rsvd9_1 : BitVec 9
  /-- `W[3][0]` -/
  c : BitVec 1
  deriving DecidableEq, Repr

/-- A record of BandwidthRequest (R38). -/
structure BandwidthRequestRec where
  /-- `W[0]` -/
  rsvdW0 : Word
  /-- `W[1]` -/
  rsvdW1 : Word
  /-- `W[2][31:24]` -/
  completionCode : BitVec 8
  /-- `W[2][23:0]` -/
  rsvdW2 : BitVec 24
  /-- `W[3][31:24]` -/
  slotId : BitVec 8
  /-- `W[3][23:16]` -/
  rsvd23_16 : BitVec 8
  /-- `W[3][15:10]` -/
  tag : BitVec 6
  /-- `W[3][9:1]` -/
  rsvd9_1 : BitVec 9
  /-- `W[3][0]` -/
  c : BitVec 1
  deriving DecidableEq, Repr

/-- A record of Doorbell (R39). -/
structure DoorbellRec where
  /-- `W[0][31:5]` -/
  rsvd31_5 : BitVec 27
  /-- `W[0][4:0]` -/
  dbReason : BitVec 5
  /-- `W[1]` -/
  rsvdW1 : Word
  /-- `W[2][31:24]` -/
  completionCode : BitVec 8
  /-- `W[2][23:0]` -/
  rsvdW2 : BitVec 24
  /-- `W[3][31:16]` -/
  unnamed31_16 : BitVec 16
  /-- `W[3][15:10]` -/
  tag : BitVec 6
  /-- `W[3][9:1]` -/
  rsvd9_1 : BitVec 9
  /-- `W[3][0]` -/
  c : BitVec 1
  deriving DecidableEq, Repr

/-- A record of HostController (R40). -/
structure HostControllerRec where
  /-- `W[0]` -/
  rsvdW0 : Word
  /-- `W[1]` -/
  rsvdW1 : Word
  /-- `W[2][31:24]` -/
  completionCode : BitVec 8
  /-- `W[2][23:0]` -/
  rsvdW2 : BitVec 24
  /-- `W[3][31:16]` -/
  rsvd31_16 : BitVec 16
  /-- `W[3][15:10]` -/
  tag : BitVec 6
  /-- `W[3][9:1]` -/
  rsvd9_1 : BitVec 9
  /-- `W[3][0]` -/
  c : BitVec 1
  deriving DecidableEq, Repr

/-- A record of DeviceNotification (R41, as 90_conflicts.md C3 and C4 resolve the row). -/
structure DeviceNotificationRec where
  /-- `W[1] || W[0][31:8]` -/
  notificationData : BitVec 56
  /-- `W[0][7:4]` -/
  notificationType : BitVec 4
  /-- `W[0][3:0]` -/
  rsvd3_0 : BitVec 4
  /-- `W[2][31:24]` -/
  completionCode : BitVec 8
  /-- `W[2][23:0]` -/
  rsvdW2 : BitVec 24
  /-- `W[3][31:24]` -/
  slotId : BitVec 8
  /-- `W[3][23:16]` -/
  rsvd23_16 : BitVec 8
  /-- `W[3][15:10]` -/
  tag : BitVec 6
  /-- `W[3][9:1]` -/
  rsvd9_1 : BitVec 9
  /-- `W[3][0]` -/
  c : BitVec 1
  deriving DecidableEq, Repr

/-- A record of MfindexWrap (R42); the unnamed ranges are reserved under STRICT. -/
structure MfindexWrapRec where
  /-- `W[1]` -/
  unnamedW1 : Word
  /-- `W[0][31:4]` -/
  unnamed31_4 : BitVec 28
  /-- `W[0][3:0]` -/
  rsvd3_0 : BitVec 4
  /-- `W[2][31:24]` -/
  completionCode : BitVec 8
  /-- `W[2][23:0]` -/
  rsvdW2 : BitVec 24
  /-- `W[3][31:24]` -/
  unnamed31_24 : BitVec 8
  /-- `W[3][23:16]` -/
  rsvd23_16 : BitVec 8
  /-- `W[3][15:10]` -/
  tag : BitVec 6
  /-- `W[3][9:1]` -/
  rsvd9_1 : BitVec 9
  /-- `W[3][0]` -/
  c : BitVec 1
  deriving DecidableEq, Repr

/-- One constructor per row of spec/opcode_table.json: a record viewed as that row's type, decoded. The tag is the
opcode (INDEX.md); what is done with the record is the operation the host requests with it (10_state.md R12). -/
inductive Instr where
  | normal (r : TagOnly)
  | setupStage (r : TagOnly)
  | dataStage (r : TagOnly)
  | statusStage (r : TagOnly)
  | isoch (r : TagOnly)
  | link (r : LinkRec)
  | eventData (r : TagOnly)
  | noopTransfer (r : TagOnly)
  | enableSlot (r : TagOnly)
  | disableSlot (r : TagOnly)
  | addressDevice (r : TagOnly)
  | configureEndpoint (r : TagOnly)
  | evaluateContext (r : TagOnly)
  | resetEndpoint (r : TagOnly)
  | stopEndpoint (r : TagOnly)
  | setTrDequeuePointer (r : TagOnly)
  | resetDevice (r : TagOnly)
  | forceEvent (r : TagOnly)
  | negotiateBandwidth (r : TagOnly)
  | setLatencyToleranceValue (r : TagOnly)
  | getPortBandwidth (r : TagOnly)
  | forceHeader (r : TagOnly)
  | noopCommand (r : TagOnly)
  | getExtendedProperty (r : TagOnly)
  | setExtendedProperty (r : TagOnly)
  | transferEvent (r : TransferEventRec)
  | commandCompletion (r : CommandCompletionRec)
  | portStatusChange (r : PortStatusChangeRec)
  | bandwidthRequest (r : BandwidthRequestRec)
  | doorbell (r : DoorbellRec)
  | hostController (r : HostControllerRec)
  | deviceNotification (r : DeviceNotificationRec)
  | mfindexWrap (r : MfindexWrapRec)
  deriving DecidableEq, Repr

/-- The type a record is viewed as. -/
def Instr.type : Instr → RecType
  | .normal _ => .normal
  | .setupStage _ => .setupStage
  | .dataStage _ => .dataStage
  | .statusStage _ => .statusStage
  | .isoch _ => .isoch
  | .link _ => .link
  | .eventData _ => .eventData
  | .noopTransfer _ => .noopTransfer
  | .enableSlot _ => .enableSlot
  | .disableSlot _ => .disableSlot
  | .addressDevice _ => .addressDevice
  | .configureEndpoint _ => .configureEndpoint
  | .evaluateContext _ => .evaluateContext
  | .resetEndpoint _ => .resetEndpoint
  | .stopEndpoint _ => .stopEndpoint
  | .setTrDequeuePointer _ => .setTrDequeuePointer
  | .resetDevice _ => .resetDevice
  | .forceEvent _ => .forceEvent
  | .negotiateBandwidth _ => .negotiateBandwidth
  | .setLatencyToleranceValue _ => .setLatencyToleranceValue
  | .getPortBandwidth _ => .getPortBandwidth
  | .forceHeader _ => .forceHeader
  | .noopCommand _ => .noopCommand
  | .getExtendedProperty _ => .getExtendedProperty
  | .setExtendedProperty _ => .setExtendedProperty
  | .transferEvent _ => .transferEvent
  | .commandCompletion _ => .commandCompletion
  | .portStatusChange _ => .portStatusChange
  | .bandwidthRequest _ => .bandwidthRequest
  | .doorbell _ => .doorbell
  | .hostController _ => .hostController
  | .deviceNotification _ => .deviceNotification
  | .mfindexWrap _ => .mfindexWrap

/-- The named fields of the eight event variants and of Link, one name `V.f` each (30_encoding.md R49;
42_event_fields.md section 9; 44_link_contracts.md R151). -/
inductive Field where
  | transferEventTrbPointer
  | transferEventTrbTransferLength
  | transferEventEventData
  | transferEventEndpointId
  | transferEventSlotId
  | transferEventCompletionCode
  | commandCompletionCommandTrbPointer
  | commandCompletionCommandCompletionParameter
  | commandCompletionVfId
  | commandCompletionSlotId
  | commandCompletionCompletionCode
  | portStatusChangePortId
  | portStatusChangeCompletionCode
  | bandwidthRequestSlotId
  | bandwidthRequestCompletionCode
  | doorbellDbReason
  | doorbellCompletionCode
  | hostControllerCompletionCode
  | deviceNotificationNotificationType
  | deviceNotificationNotificationData
  | deviceNotificationSlotId
  | deviceNotificationCompletionCode
  | mfindexWrapCompletionCode
  | linkRingSegmentPointer
  deriving DecidableEq, Repr

/-- Every field. -/
def Field.all : List Field :=
  [.transferEventTrbPointer, .transferEventTrbTransferLength, .transferEventEventData,
   .transferEventEndpointId, .transferEventSlotId, .transferEventCompletionCode,
   .commandCompletionCommandTrbPointer, .commandCompletionCommandCompletionParameter, .commandCompletionVfId,
   .commandCompletionSlotId, .commandCompletionCompletionCode, .portStatusChangePortId,
   .portStatusChangeCompletionCode, .bandwidthRequestSlotId, .bandwidthRequestCompletionCode,
   .doorbellDbReason, .doorbellCompletionCode, .hostControllerCompletionCode,
   .deviceNotificationNotificationType, .deviceNotificationNotificationData, .deviceNotificationSlotId,
   .deviceNotificationCompletionCode, .mfindexWrapCompletionCode, .linkRingSegmentPointer]

/-- The type whose records have the field: `GET.V.f` and `SET.V.f` apply to a record typed `V` and to no other
(42_event_fields.md R136). -/
def Field.owner : Field → RecType
  | .transferEventTrbPointer | .transferEventTrbTransferLength | .transferEventEventData | .transferEventEndpointId | .transferEventSlotId | .transferEventCompletionCode => .transferEvent
  | .commandCompletionCommandTrbPointer | .commandCompletionCommandCompletionParameter | .commandCompletionVfId | .commandCompletionSlotId | .commandCompletionCompletionCode => .commandCompletion
  | .portStatusChangePortId | .portStatusChangeCompletionCode => .portStatusChange
  | .bandwidthRequestSlotId | .bandwidthRequestCompletionCode => .bandwidthRequest
  | .doorbellDbReason | .doorbellCompletionCode => .doorbell
  | .hostControllerCompletionCode => .hostController
  | .deviceNotificationNotificationType | .deviceNotificationNotificationData | .deviceNotificationSlotId | .deviceNotificationCompletionCode => .deviceNotification
  | .mfindexWrapCompletionCode => .mfindexWrap
  | .linkRingSegmentPointer => .link

/-- The width in bits of a setter's value operand: OPW = 64, and one bit for the flag (42_event_fields.md, common
rules; 92_eei_decisions.md D6, D14; log 13). -/
abbrev Field.operandWidth : Field → Nat
  | .transferEventEventData => 1
  | _ => 64

/-- A setter with its operand: the cycle bit of any type (40_framework.md R52), or a field (R57). -/
inductive SetterCall where
  | cycle (b : BitVec 1)
  | field (f : Field) (v : BitVec f.operandWidth)
  deriving DecidableEq, Repr

/-- The operations that name a type `T`, or take a record typed `T` (30_encoding.md R49). -/
inductive TypeOp where
  /-- `NEW.T` (R50); it has no record operand, so the record that stands with the request is not read (log 14). -/
  | new
  /-- `GET.C r` (R51) -/
  | getC
  /-- `SET.C r, b` (R52) and `SET.V.f r, v` (42_event_fields.md, odd rules; R151) -/
  | set (call : SetterCall)
  /-- `GET.V.f r` (42_event_fields.md, even rules; R152) -/
  | get (f : Field)
  /-- `INTO_RAW r` (R53) -/
  | intoRaw
  /-- `FROM_RAW.T w` (R54) -/
  | fromRaw
  /-- `TRY.V w` (41_validate_classify.md R70 to R78) -/
  | tryV
  /-- `WRAP.V r` (R81) -/
  | wrap
  deriving DecidableEq, Repr

/-- The operations on a value of the union Allowed (41_validate_classify.md R82, R83). -/
inductive AllowedOp where
  | getC
  | setC (b : BitVec 1)
  | intoRaw
  deriving DecidableEq, Repr

/-- The operations on a raw record whose type the block finds itself: `TYPE_OF w` (R55), `CLASSIFY w` (R79). -/
inductive RawOp where
  | typeOf
  | classify
  deriving DecidableEq, Repr

/-- The operation names of 30_encoding.md R49, an abstract type with no numeric code (92_eei_decisions.md D3). -/
inductive OpName where
  | new (t : RecType)
  | getC
  | setC
  | get (f : Field)
  | set (f : Field)
  | intoRaw
  | fromRaw (t : RecType)
  | tryV (t : RecType)
  | wrap (t : RecType)
  | allowedGetC
  | allowedSetC
  | allowedIntoRaw
  | typeOf
  | classify
  | ccDecode
  deriving DecidableEq, Repr

/-- The name of a setter. -/
def SetterCall.name : SetterCall → OpName
  | .cycle _ => .setC
  | .field f _ => .set f

/-- The name of an operation requested with type `t`. -/
def TypeOp.name (t : RecType) : TypeOp → OpName
  | .new => .new t
  | .getC => .getC
  | .set call => call.name
  | .get f => .get f
  | .intoRaw => .intoRaw
  | .fromRaw => .fromRaw t
  | .tryV => .tryV t
  | .wrap => .wrap t

/-- The name of an operation on Allowed. -/
def AllowedOp.name : AllowedOp → OpName
  | .getC => .allowedGetC
  | .setC _ => .allowedSetC
  | .intoRaw => .allowedIntoRaw

/-- The name of an operation on a raw record. -/
def RawOp.name : RawOp → OpName
  | .typeOf => .typeOf
  | .classify => .classify

end Sys2Proof
end

