-- ==== Sys2Proof/Config.lean ====
section
/-! DEFINITION. The configuration: what an instance of the block fixes and never changes (10_state.md R17; 00_scope.md
section 4). The default tables stand in Decode.lean. The spec leaves no value of a result open, so there is no free value
here (93_implementation_defined.md Part 1). -/

namespace Sys2Proof

/-- The parameter MFINDEX_RESERVED (30_encoding.md R42; 92_eei_decisions.md D11). -/
inductive MfindexReserved where
  | literal
  | strict
  deriving DecidableEq, Repr

/-- The open parameters of the block that are tables or switches (92_eei_decisions.md, open parameters). -/
structure Config where
  /-- TYPE_TABLE (30_encoding.md R33): the tag of a type name, none where the table leaves the name out. How many names an
  admissible table holds the spec leaves open ("~30"); DESIGN CHOICE: no count is asked, the ten names the source gives must
  be there and each of the other 23 may be (log 20). -/
  typeTable : RecType → Option (BitVec 6)
  /-- CC_TABLE (43_completion_code.md R140): the rows, each a name and its value. DESIGN CHOICE: any names in any number
  beside the four the source gives (log 20). -/
  ccTable : List (CompletionCode × BitVec 8)
  /-- MFINDEX_RESERVED (R42) -/
  mfindexReserved : MfindexReserved

/-- The constraints every configuration must meet (30_encoding.md R33; 43_completion_code.md R140, R143;
70_reset_and_hazards.md R182; 92_eei_decisions.md, open parameters). -/
structure Config.Admissible (cfg : Config) : Prop where
  /-- TYPE_TABLE is injective. -/
  typeInjective : ∀ (a b : RecType) (n : BitVec 6), cfg.typeTable a = some n → cfg.typeTable b = some n → a = b
  /-- Command and transfer names have tags 1 to 25. -/
  commandTransferTag : ∀ (t : RecType) (n : BitVec 6), t.event? = none → cfg.typeTable t = some n →
    1 ≤ n.toNat ∧ n.toNat ≤ 25
  /-- The eight event names are in the table, with tags 32 to 39. -/
  eventTag : ∀ v : EventVariant, ∃ n : BitVec 6, cfg.typeTable v.toType = some n ∧ 32 ≤ n.toNat ∧ n.toNat ≤ 39
  /-- Normal and Link are in the table. -/
  typeNames : (cfg.typeTable .normal).isSome ∧ (cfg.typeTable .link).isSome
  /-- CC_TABLE gives a name one value. -/
  ccOneValue : ∀ (c : CompletionCode) (m n : BitVec 8), (c, m) ∈ cfg.ccTable → (c, n) ∈ cfg.ccTable → m = n
  /-- CC_TABLE is injective. -/
  ccInjective : ∀ (a b : CompletionCode) (n : BitVec 8), (a, n) ∈ cfg.ccTable → (b, n) ∈ cfg.ccTable → a = b
  /-- 1 is Success. -/
  ccSuccess : (.success, 1) ∈ cfg.ccTable
  /-- 30 and 255 are in no row. -/
  ccGaps : ∀ c : CompletionCode, (c, 30) ∉ cfg.ccTable ∧ (c, 255) ∉ cfg.ccTable
  /-- The other three names the source gives are in the table. -/
  ccNames : ∀ c ∈ [CompletionCode.stallError, .shortPacket, .commandAborted], ∃ n : BitVec 8, (c, n) ∈ cfg.ccTable

end Sys2Proof
end

