-- ==== Sys2Proof/WellFormed.lean ====
section
/-! DEFINITION. Well-formed instructions: the tag is the one TYPE_TABLE gives the type, and every reserved range is zero.
Written from the kind column of the format tables (30_encoding.md R35 to R42); `valid` in Machine/Validate.lean is written
from RESERVED, so that the two can be held against each other. -/

namespace Sys2Proof

/-- The tag the record holds. -/
def Instr.tagBits : Instr → BitVec 6
  | .normal r => r.tag
  | .setupStage r => r.tag
  | .dataStage r => r.tag
  | .statusStage r => r.tag
  | .isoch r => r.tag
  | .link r => r.tag
  | .eventData r => r.tag
  | .noopTransfer r => r.tag
  | .enableSlot r => r.tag
  | .disableSlot r => r.tag
  | .addressDevice r => r.tag
  | .configureEndpoint r => r.tag
  | .evaluateContext r => r.tag
  | .resetEndpoint r => r.tag
  | .stopEndpoint r => r.tag
  | .setTrDequeuePointer r => r.tag
  | .resetDevice r => r.tag
  | .forceEvent r => r.tag
  | .negotiateBandwidth r => r.tag
  | .setLatencyToleranceValue r => r.tag
  | .getPortBandwidth r => r.tag
  | .forceHeader r => r.tag
  | .noopCommand r => r.tag
  | .getExtendedProperty r => r.tag
  | .setExtendedProperty r => r.tag
  | .transferEvent r => r.tag
  | .commandCompletion r => r.tag
  | .portStatusChange r => r.tag
  | .bandwidthRequest r => r.tag
  | .doorbell r => r.tag
  | .hostController r => r.tag
  | .deviceNotification r => r.tag
  | .mfindexWrap r => r.tag

/-- Every reserved range is zero. A command or transfer type has no reserved table (R43, R88), so nothing is asked. -/
def Instr.reservedClear (cfg : Config) : Instr → Bool
  | .normal _ => true
  | .setupStage _ => true
  | .dataStage _ => true
  | .statusStage _ => true
  | .isoch _ => true
  | .link _ => true
  | .eventData _ => true
  | .noopTransfer _ => true
  | .enableSlot _ => true
  | .disableSlot _ => true
  | .addressDevice _ => true
  | .configureEndpoint _ => true
  | .evaluateContext _ => true
  | .resetEndpoint _ => true
  | .stopEndpoint _ => true
  | .setTrDequeuePointer _ => true
  | .resetDevice _ => true
  | .forceEvent _ => true
  | .negotiateBandwidth _ => true
  | .setLatencyToleranceValue _ => true
  | .getPortBandwidth _ => true
  | .forceHeader _ => true
  | .noopCommand _ => true
  | .getExtendedProperty _ => true
  | .setExtendedProperty _ => true
  | .transferEvent r => r.rsvd23_21 == 0 && r.rsvd9_3 == 0 && r.rsvd1 == 0
  | .commandCompletion r => r.commandTrbPointer.extractLsb' 0 4 == 0 && r.rsvd9_1 == 0
  | .portStatusChange r => r.rsvdW0 == 0 && r.rsvdW1 == 0 && r.rsvdW2 == 0 && r.rsvd31_16 == 0 && r.rsvd9_1 == 0
  | .bandwidthRequest r => r.rsvdW0 == 0 && r.rsvdW1 == 0 && r.rsvdW2 == 0 && r.rsvd23_16 == 0 && r.rsvd9_1 == 0
  | .doorbell r => r.rsvd31_5 == 0 && r.rsvdW1 == 0 && r.rsvdW2 == 0 && r.rsvd9_1 == 0
  | .hostController r => r.rsvdW0 == 0 && r.rsvdW1 == 0 && r.rsvdW2 == 0 && r.rsvd31_16 == 0 && r.rsvd9_1 == 0
  | .deviceNotification r => r.rsvd3_0 == 0 && r.rsvdW2 == 0 && r.rsvd23_16 == 0 && r.rsvd9_1 == 0
  | .mfindexWrap r => r.rsvd3_0 == 0 && r.rsvdW2 == 0 && r.rsvd23_16 == 0 && r.rsvd9_1 == 0 &&
      (match cfg.mfindexReserved with
       | .literal => true
       | .strict => r.unnamed31_4 == 0 && r.unnamedW1 == 0 && r.unnamed31_24 == 0)

/-- A well-formed instruction: what the decoder gives and the encoder's round trip is about. -/
def Instr.wellFormed (cfg : Config) (i : Instr) : Bool :=
  cfg.typeTable i.type == some i.tagBits && i.reservedClear cfg

end Sys2Proof
end

