-- ==== Sys2Proof/Decode.lean ====
section
/-! DEFINITION. Decoding and encoding: the default tables, the 16-byte image of a record, the view of 128 bits as a
record of a type, the decoder and the encoder. -/

namespace Sys2Proof

/-- The default TYPE_TABLE. PRESUMED by the spec itself, from general knowledge (30_encoding.md R33;
93_implementation_defined.md G1; log 6). -/
def defaultTypeTable : RecType → Option (BitVec 6)
  | .normal => some 1
  | .setupStage => some 2
  | .dataStage => some 3
  | .statusStage => some 4
  | .isoch => some 5
  | .link => some 6
  | .eventData => some 7
  | .noopTransfer => some 8
  | .enableSlot => some 9
  | .disableSlot => some 10
  | .addressDevice => some 11
  | .configureEndpoint => some 12
  | .evaluateContext => some 13
  | .resetEndpoint => some 14
  | .stopEndpoint => some 15
  | .setTrDequeuePointer => some 16
  | .resetDevice => some 17
  | .forceEvent => some 18
  | .negotiateBandwidth => some 19
  | .setLatencyToleranceValue => some 20
  | .getPortBandwidth => some 21
  | .forceHeader => some 22
  | .noopCommand => some 23
  | .getExtendedProperty => some 24
  | .setExtendedProperty => some 25
  | .transferEvent => some 32
  | .commandCompletion => some 33
  | .portStatusChange => some 34
  | .bandwidthRequest => some 35
  | .doorbell => some 36
  | .hostController => some 37
  | .deviceNotification => some 38
  | .mfindexWrap => some 39

/-- The default CC_TABLE. PRESUMED by the spec itself, from general knowledge, but for Success = 1
(43_completion_code.md R140; 93_implementation_defined.md G2; log 7). -/
def defaultCcTable : List (CompletionCode × BitVec 8) :=
  [(.invalid, 0), (.success, 1), (.dataBufferError, 2), (.babbleDetectedError, 3), (.usbTransactionError, 4),
   (.trbError, 5), (.stallError, 6), (.resourceError, 7), (.bandwidthError, 8), (.noSlotsAvailableError, 9),
   (.invalidStreamTypeError, 10), (.slotNotEnabledError, 11), (.endpointNotEnabledError, 12), (.shortPacket, 13),
   (.ringUnderrun, 14), (.ringOverrun, 15), (.vfEventRingFullError, 16), (.parameterError, 17),
   (.bandwidthOverrunError, 18), (.contextStateError, 19), (.noPingResponseError, 20), (.eventRingFullError, 21),
   (.incompatibleDeviceError, 22), (.missedServiceError, 23), (.commandRingStopped, 24), (.commandAborted, 25),
   (.stopped, 26), (.stoppedLengthInvalid, 27), (.stoppedShortPacket, 28), (.maxExitLatencyTooLargeError, 29),
   (.isochBufferOverrun, 31), (.eventLostError, 32), (.undefinedError, 33), (.invalidStreamIdError, 34),
   (.secondaryBandwidthError, 35), (.splitTransactionError, 36)]

/-- The configuration of the instance that `exec` and `step` are: the default value of every parameter
(00_scope.md section 4; MFINDEX_RESERVED = LITERAL, log 10). `execWith` and `stepWith` take any (log 21). -/
def Config.default : Config where
  typeTable := defaultTypeTable
  ccTable := defaultCcTable
  mfindexReserved := .literal

/-! The 16-byte image (20_memory.md R21, R22, R23): little-endian words, `W[0]` first. -/

/-- Byte `j` of a word: `w[8*j+7 : 8*j]` (R21). -/
def byteOf (w : Word) (j : Nat) : Byte := w.extractLsb' (8 * j) 8

/-- `to_bytes` (R21). -/
def toBytes (r : Raw) : List Byte :=
  [byteOf r.w0 0, byteOf r.w0 1, byteOf r.w0 2, byteOf r.w0 3,
   byteOf r.w1 0, byteOf r.w1 1, byteOf r.w1 2, byteOf r.w1 3,
   byteOf r.w2 0, byteOf r.w2 1, byteOf r.w2 2, byteOf r.w2 3,
   byteOf r.w3 0, byteOf r.w3 1, byteOf r.w3 2, byteOf r.w3 3]

/-- One word from its four bytes, least significant first (R22). -/
def wordOfBytes (b0 b1 b2 b3 : Byte) : Word := b3 ++ b2 ++ b1 ++ b0

/-- `from_bytes` (R22) on the first 16 bytes of a list, with what follows them. -/
def fromBytes : List Byte → Option (Raw × List Byte)
  | a0 :: a1 :: a2 :: a3 :: b0 :: b1 :: b2 :: b3 :: c0 :: c1 :: c2 :: c3 :: d0 :: d1 :: d2 :: d3 :: rest =>
    some (⟨wordOfBytes a0 a1 a2 a3, wordOfBytes b0 b1 b2 b3, wordOfBytes c0 c1 c2 c3, wordOfBytes d0 d1 d2 d3⟩, rest)
  | _ => none

/-! Every record of a type viewed as that type, and back. A view checks nothing (10_state.md R19; 40_framework.md R54). -/

/-- The four words of a record of the 24 tag-only types (R31, R156). -/
def TagOnly.toRaw (r : TagOnly) : Raw where
  w0 := r.unspecW0
  w1 := r.unspecW1
  w2 := r.unspecW2
  w3 := r.unspec31_16 ++ r.tag ++ r.unspec9_1 ++ r.c

/-- 128 bits viewed as a record of the 24 tag-only types (R31, R156). -/
def TagOnly.ofRaw (w : Raw) : TagOnly where
  unspecW0 := w.w0
  unspecW1 := w.w1
  unspecW2 := w.w2
  unspec31_16 := w.w3.extractLsb' 16 16
  tag := w.w3.extractLsb' 10 6
  unspec9_1 := w.w3.extractLsb' 1 9
  c := w.w3.extractLsb' 0 1

/-- The four words of a record of Link (R43). -/
def LinkRec.toRaw (r : LinkRec) : Raw where
  w0 := r.ringSegmentPointer.extractLsb' 0 32
  w1 := r.ringSegmentPointer.extractLsb' 32 32
  w2 := r.unspecW2
  w3 := r.unspec31_16 ++ r.tag ++ r.unspec9_1 ++ r.c

/-- 128 bits viewed as a record of Link (R43). -/
def LinkRec.ofRaw (w : Raw) : LinkRec where
  ringSegmentPointer := w.w1 ++ w.w0
  unspecW2 := w.w2
  unspec31_16 := w.w3.extractLsb' 16 16
  tag := w.w3.extractLsb' 10 6
  unspec9_1 := w.w3.extractLsb' 1 9
  c := w.w3.extractLsb' 0 1

/-- The four words of a record of TransferEvent (R35). -/
def TransferEventRec.toRaw (r : TransferEventRec) : Raw where
  w0 := r.trbPointer.extractLsb' 0 32
  w1 := r.trbPointer.extractLsb' 32 32
  w2 := r.completionCode ++ r.trbTransferLength
  w3 := r.slotId ++ r.rsvd23_21 ++ r.endpointId ++ r.tag ++ r.rsvd9_3 ++ r.eventData ++ r.rsvd1 ++ r.c

/-- 128 bits viewed as a record of TransferEvent (R35). -/
def TransferEventRec.ofRaw (w : Raw) : TransferEventRec where
  trbPointer := w.w1 ++ w.w0
  completionCode := w.w2.extractLsb' 24 8
  trbTransferLength := w.w2.extractLsb' 0 24
  slotId := w.w3.extractLsb' 24 8
  rsvd23_21 := w.w3.extractLsb' 21 3
  endpointId := w.w3.extractLsb' 16 5
  tag := w.w3.extractLsb' 10 6
  rsvd9_3 := w.w3.extractLsb' 3 7
  eventData := w.w3.extractLsb' 2 1
  rsvd1 := w.w3.extractLsb' 1 1
  c := w.w3.extractLsb' 0 1

/-- The four words of a record of CommandCompletion (R36). -/
def CommandCompletionRec.toRaw (r : CommandCompletionRec) : Raw where
  w0 := r.commandTrbPointer.extractLsb' 0 32
  w1 := r.commandTrbPointer.extractLsb' 32 32
  w2 := r.completionCode ++ r.commandCompletionParameter
  w3 := r.slotId ++ r.vfId ++ r.tag ++ r.rsvd9_1 ++ r.c

/-- 128 bits viewed as a record of CommandCompletion (R36). -/
def CommandCompletionRec.ofRaw (w : Raw) : CommandCompletionRec where
  commandTrbPointer := w.w1 ++ w.w0
  completionCode := w.w2.extractLsb' 24 8
  commandCompletionParameter := w.w2.extractLsb' 0 24
  slotId := w.w3.extractLsb' 24 8
  vfId := w.w3.extractLsb' 16 8
  tag := w.w3.extractLsb' 10 6
  rsvd9_1 := w.w3.extractLsb' 1 9
  c := w.w3.extractLsb' 0 1

/-- The four words of a record of PortStatusChange (R37). -/
def PortStatusChangeRec.toRaw (r : PortStatusChangeRec) : Raw where
  w0 := r.portId ++ r.rsvdW0
  w1 := r.rsvdW1
  w2 := r.completionCode ++ r.rsvdW2
  w3 := r.rsvd31_16 ++ r.tag ++ r.rsvd9_1 ++ r.c

/-- 128 bits viewed as a record of PortStatusChange (R37). -/
def PortStatusChangeRec.ofRaw (w : Raw) : PortStatusChangeRec where
  portId := w.w0.extractLsb' 24 8
  rsvdW0 := w.w0.extractLsb' 0 24
  rsvdW1 := w.w1
  completionCode := w.w2.extractLsb' 24 8
  rsvdW2 := w.w2.extractLsb' 0 24
  rsvd31_16 := w.w3.extractLsb' 16 16
  tag := w.w3.extractLsb' 10 6
  rsvd9_1 := w.w3.extractLsb' 1 9
  c := w.w3.extractLsb' 0 1

/-- The four words of a record of BandwidthRequest (R38). -/
def BandwidthRequestRec.toRaw (r : BandwidthRequestRec) : Raw where
  w0 := r.rsvdW0
  w1 := r.rsvdW1
  w2 := r.completionCode ++ r.rsvdW2
  w3 := r.slotId ++ r.rsvd23_16 ++ r.tag ++ r.rsvd9_1 ++ r.c

/-- 128 bits viewed as a record of BandwidthRequest (R38). -/
def BandwidthRequestRec.ofRaw (w : Raw) : BandwidthRequestRec where
  rsvdW0 := w.w0
  rsvdW1 := w.w1
  completionCode := w.w2.extractLsb' 24 8
  rsvdW2 := w.w2.extractLsb' 0 24
  slotId := w.w3.extractLsb' 24 8
  rsvd23_16 := w.w3.extractLsb' 16 8
  tag := w.w3.extractLsb' 10 6
  rsvd9_1 := w.w3.extractLsb' 1 9
  c := w.w3.extractLsb' 0 1

/-- The four words of a record of Doorbell (R39). -/
def DoorbellRec.toRaw (r : DoorbellRec) : Raw where
  w0 := r.rsvd31_5 ++ r.dbReason
  w1 := r.rsvdW1
  w2 := r.completionCode ++ r.rsvdW2
  w3 := r.unnamed31_16 ++ r.tag ++ r.rsvd9_1 ++ r.c

/-- 128 bits viewed as a record of Doorbell (R39). -/
def DoorbellRec.ofRaw (w : Raw) : DoorbellRec where
  rsvd31_5 := w.w0.extractLsb' 5 27
  dbReason := w.w0.extractLsb' 0 5
  rsvdW1 := w.w1
  completionCode := w.w2.extractLsb' 24 8
  rsvdW2 := w.w2.extractLsb' 0 24
  unnamed31_16 := w.w3.extractLsb' 16 16
  tag := w.w3.extractLsb' 10 6
  rsvd9_1 := w.w3.extractLsb' 1 9
  c := w.w3.extractLsb' 0 1

/-- The four words of a record of HostController (R40). -/
def HostControllerRec.toRaw (r : HostControllerRec) : Raw where
  w0 := r.rsvdW0
  w1 := r.rsvdW1
  w2 := r.completionCode ++ r.rsvdW2
  w3 := r.rsvd31_16 ++ r.tag ++ r.rsvd9_1 ++ r.c

/-- 128 bits viewed as a record of HostController (R40). -/
def HostControllerRec.ofRaw (w : Raw) : HostControllerRec where
  rsvdW0 := w.w0
  rsvdW1 := w.w1
  completionCode := w.w2.extractLsb' 24 8
  rsvdW2 := w.w2.extractLsb' 0 24
  rsvd31_16 := w.w3.extractLsb' 16 16
  tag := w.w3.extractLsb' 10 6
  rsvd9_1 := w.w3.extractLsb' 1 9
  c := w.w3.extractLsb' 0 1

/-- The four words of a record of DeviceNotification (R41). -/
def DeviceNotificationRec.toRaw (r : DeviceNotificationRec) : Raw where
  w0 := (r.notificationData.extractLsb' 0 24) ++ r.notificationType ++ r.rsvd3_0
  w1 := r.notificationData.extractLsb' 24 32
  w2 := r.completionCode ++ r.rsvdW2
  w3 := r.slotId ++ r.rsvd23_16 ++ r.tag ++ r.rsvd9_1 ++ r.c

/-- 128 bits viewed as a record of DeviceNotification (R41). -/
def DeviceNotificationRec.ofRaw (w : Raw) : DeviceNotificationRec where
  notificationData := w.w1 ++ (w.w0.extractLsb' 8 24)
  notificationType := w.w0.extractLsb' 4 4
  rsvd3_0 := w.w0.extractLsb' 0 4
  completionCode := w.w2.extractLsb' 24 8
  rsvdW2 := w.w2.extractLsb' 0 24
  slotId := w.w3.extractLsb' 24 8
  rsvd23_16 := w.w3.extractLsb' 16 8
  tag := w.w3.extractLsb' 10 6
  rsvd9_1 := w.w3.extractLsb' 1 9
  c := w.w3.extractLsb' 0 1

/-- The four words of a record of MfindexWrap (R42). -/
def MfindexWrapRec.toRaw (r : MfindexWrapRec) : Raw where
  w0 := r.unnamed31_4 ++ r.rsvd3_0
  w1 := r.unnamedW1
  w2 := r.completionCode ++ r.rsvdW2
  w3 := r.unnamed31_24 ++ r.rsvd23_16 ++ r.tag ++ r.rsvd9_1 ++ r.c

/-- 128 bits viewed as a record of MfindexWrap (R42). -/
def MfindexWrapRec.ofRaw (w : Raw) : MfindexWrapRec where
  unnamedW1 := w.w1
  unnamed31_4 := w.w0.extractLsb' 4 28
  rsvd3_0 := w.w0.extractLsb' 0 4
  completionCode := w.w2.extractLsb' 24 8
  rsvdW2 := w.w2.extractLsb' 0 24
  unnamed31_24 := w.w3.extractLsb' 24 8
  rsvd23_16 := w.w3.extractLsb' 16 8
  tag := w.w3.extractLsb' 10 6
  rsvd9_1 := w.w3.extractLsb' 1 9
  c := w.w3.extractLsb' 0 1

/-- 128 bits viewed as a record of type `t`, whatever they hold. -/
def Instr.view (t : RecType) (w : Raw) : Instr :=
  match t with
  | .normal => .normal (TagOnly.ofRaw w)
  | .setupStage => .setupStage (TagOnly.ofRaw w)
  | .dataStage => .dataStage (TagOnly.ofRaw w)
  | .statusStage => .statusStage (TagOnly.ofRaw w)
  | .isoch => .isoch (TagOnly.ofRaw w)
  | .link => .link (LinkRec.ofRaw w)
  | .eventData => .eventData (TagOnly.ofRaw w)
  | .noopTransfer => .noopTransfer (TagOnly.ofRaw w)
  | .enableSlot => .enableSlot (TagOnly.ofRaw w)
  | .disableSlot => .disableSlot (TagOnly.ofRaw w)
  | .addressDevice => .addressDevice (TagOnly.ofRaw w)
  | .configureEndpoint => .configureEndpoint (TagOnly.ofRaw w)
  | .evaluateContext => .evaluateContext (TagOnly.ofRaw w)
  | .resetEndpoint => .resetEndpoint (TagOnly.ofRaw w)
  | .stopEndpoint => .stopEndpoint (TagOnly.ofRaw w)
  | .setTrDequeuePointer => .setTrDequeuePointer (TagOnly.ofRaw w)
  | .resetDevice => .resetDevice (TagOnly.ofRaw w)
  | .forceEvent => .forceEvent (TagOnly.ofRaw w)
  | .negotiateBandwidth => .negotiateBandwidth (TagOnly.ofRaw w)
  | .setLatencyToleranceValue => .setLatencyToleranceValue (TagOnly.ofRaw w)
  | .getPortBandwidth => .getPortBandwidth (TagOnly.ofRaw w)
  | .forceHeader => .forceHeader (TagOnly.ofRaw w)
  | .noopCommand => .noopCommand (TagOnly.ofRaw w)
  | .getExtendedProperty => .getExtendedProperty (TagOnly.ofRaw w)
  | .setExtendedProperty => .setExtendedProperty (TagOnly.ofRaw w)
  | .transferEvent => .transferEvent (TransferEventRec.ofRaw w)
  | .commandCompletion => .commandCompletion (CommandCompletionRec.ofRaw w)
  | .portStatusChange => .portStatusChange (PortStatusChangeRec.ofRaw w)
  | .bandwidthRequest => .bandwidthRequest (BandwidthRequestRec.ofRaw w)
  | .doorbell => .doorbell (DoorbellRec.ofRaw w)
  | .hostController => .hostController (HostControllerRec.ofRaw w)
  | .deviceNotification => .deviceNotification (DeviceNotificationRec.ofRaw w)
  | .mfindexWrap => .mfindexWrap (MfindexWrapRec.ofRaw w)

/-- The encoder: the four words of an instruction, written from the format tables (30_encoding.md R31, R35 to R43). -/
def encode : Instr → Raw
  | .normal r => r.toRaw
  | .setupStage r => r.toRaw
  | .dataStage r => r.toRaw
  | .statusStage r => r.toRaw
  | .isoch r => r.toRaw
  | .link r => r.toRaw
  | .eventData r => r.toRaw
  | .noopTransfer r => r.toRaw
  | .enableSlot r => r.toRaw
  | .disableSlot r => r.toRaw
  | .addressDevice r => r.toRaw
  | .configureEndpoint r => r.toRaw
  | .evaluateContext r => r.toRaw
  | .resetEndpoint r => r.toRaw
  | .stopEndpoint r => r.toRaw
  | .setTrDequeuePointer r => r.toRaw
  | .resetDevice r => r.toRaw
  | .forceEvent r => r.toRaw
  | .negotiateBandwidth r => r.toRaw
  | .setLatencyToleranceValue r => r.toRaw
  | .getPortBandwidth r => r.toRaw
  | .forceHeader r => r.toRaw
  | .noopCommand r => r.toRaw
  | .getExtendedProperty r => r.toRaw
  | .setExtendedProperty r => r.toRaw
  | .transferEvent r => r.toRaw
  | .commandCompletion r => r.toRaw
  | .portStatusChange r => r.toRaw
  | .bandwidthRequest r => r.toRaw
  | .doorbell r => r.toRaw
  | .hostController r => r.toRaw
  | .deviceNotification r => r.toRaw
  | .mfindexWrap r => r.toRaw

/-- `tag(r)`, `W[3][15:10]` (R31). -/
def tagOf (w : Raw) : BitVec 6 := w.w3.extractLsb' 10 6

/-- The type TYPE_TABLE gives a tag, if any (40_framework.md R55). -/
def typeOfTag (cfg : Config) (t : BitVec 6) : Option RecType :=
  RecType.all.find? fun x => cfg.typeTable x == some t

/-- Why 128 bits are no well-formed instruction. The reason never reaches an outcome of the block
(41_validate_classify.md R84; log 16). -/
inductive DecodeError where
  /-- Fewer than 16 bytes: a record has one length (30_encoding.md R30). -/
  | tooShort
  /-- The tag is in no row of TYPE_TABLE (R45). -/
  | unknownTag (t : BitVec 6)
  /-- The tag names an event variant and one of its reserved bits is set (R46). -/
  | reservedBits (t : RecType)
  deriving DecidableEq, Repr

/-- The decoder: the record of the type its tag names, or a rejection by name. -/
def decode (cfg : Config) (w : Raw) : Except DecodeError Instr :=
  match typeOfTag cfg (tagOf w) with
  | none => .error (.unknownTag (tagOf w))
  | some t => if (Instr.view t w).wellFormed cfg then .ok (Instr.view t w) else .error (.reservedBits t)

/-- The decoder on any bytes: the instruction of the first 16 and the bytes after them. -/
def decodeBytes (cfg : Config) (b : List Byte) : Except DecodeError (Instr × List Byte) :=
  match fromBytes b with
  | none => .error .tooShort
  | some (w, rest) =>
    match decode cfg w with
    | .ok i => .ok (i, rest)
    | .error e => .error e

/-- The encoder to bytes. -/
def encodeBytes (i : Instr) : List Byte := toBytes (encode i)

/-- The low `n` bytes of a number, least significant first. -/
def bytesOfNat : Nat → Nat → List Byte
  | 0, _ => []
  | n + 1, w => BitVec.ofNat 8 w :: bytesOfNat n (w / 256)

/-- The image of a record numbered as the opcode table numbers it: bit `32*i + k` is bit `k` of `W[i]` (00_scope.md R4);
bits from `nbits` on are zero. -/
def tableBytes (nbits w : Nat) : List Byte := bytesOfNat 16 (w % 2 ^ nbits)

/-- The record of a table word. -/
def tableRaw (nbits w : Nat) : Raw :=
  match fromBytes (tableBytes nbits w) with
  | some (r, _) => r
  | none => ⟨0, 0, 0, 0⟩

/-- The instruction the decoder reads from the bits `w` of a table word. -/
def decodeTableWord (nbits w : Nat) : Option Instr :=
  match decodeBytes Config.default (tableBytes nbits w) with
  | .ok (i, _) => some i
  | .error _ => none

end Sys2Proof
end

