-- ==== Sys2Proof/Machine/State.lean ====
section
/-! DEFINITION. The state of the block, what goes in and what comes out of it, and the reasons a step can stop. -/

namespace Sys2Proof.Machine

/-- The two fatal contract violations (60_exceptions.md R163, R164). The names are the codes; there is no number. -/
inductive FatalCause where
  | alignmentViolation
  | widthViolation
  deriving DecidableEq, Repr

/-- What an outcome can carry (60_exceptions.md R160; 00_scope.md section 5.3). -/
inductive Value where
  /-- a record typed `t` -/
  | typed (t : RecType) (r : Raw)
  /-- a raw record -/
  | raw (w : Raw)
  /-- one bit -/
  | bit (b : BitVec 1)
  /-- an unsigned field value, zero-extended to 64 bits (30_encoding.md R44; log 19) -/
  | number (n : BitVec 64)
  /-- an 8-bit value, the payload of an unmatched completion code -/
  | byte (n : BitVec 8)
  /-- a 6-bit tag, the payload of an unknown type -/
  | tag (t : BitVec 6)
  /-- a type name -/
  | typeName (t : RecType)
  /-- a completion-code name -/
  | code (c : CompletionCode)
  /-- a value of the union Allowed: a variant name and the record (41_validate_classify.md R81) -/
  | allowed (v : EventVariant) (r : Raw)
  deriving DecidableEq, Repr

/-- The four outcomes of an operation (60_exceptions.md R160). -/
inductive Response where
  | value (v : Value)
  | ok (v : Value)
  | err (v : Value)
  /-- no result at all: the fault of R167 or the gate of R168 -/
  | fault
  deriving DecidableEq, Repr

/-- What the host can do to the block between two steps: assert reset (70_reset_and_hazards.md R180) or issue one
operation with its operands (10_state.md R12). -/
inductive Input where
  | reset
  /-- an operation that names type `t` or takes a record typed `t`; `r` is the record's, or the raw operand's, 128 bits -/
  | onType (op : TypeOp) (t : RecType) (r : Raw)
  /-- an operation on the value `Allowed.v r`; the union is closed, so `v` is an event variant -/
  | onAllowed (op : AllowedOp) (v : EventVariant) (r : Raw)
  /-- an operation on a raw record -/
  | onRaw (op : RawOp) (w : Raw)
  /-- `CC.DECODE n` (43_completion_code.md R141) -/
  | ccDecode (n : BitVec 8)
  deriving DecidableEq, Repr

/-- The state. The block's own is the FATAL latch with its cause and nothing else (10_state.md R15, R18); `inputs` and
`response` are the model's, the request and response sides of the block's one transaction at a time (logs 1 and 3). -/
structure State where
  /-- FATAL (R15) -/
  fatal : Bool
  /-- FATAL_CAUSE: None, or the cause and the name of the operation that raised it (R15) -/
  fatalCause : Option (FatalCause × OpName)
  /-- the host's inputs still to be taken, oldest first -/
  inputs : List Input
  /-- what the last step answered; none after reset and after a step with no operation -/
  response : Option Response
  deriving DecidableEq, Repr

/-- The block after reset: FATAL = 0 and FATAL_CAUSE = None (R180); no input waits and nothing has been answered. -/
def State.reset : State where
  fatal := false
  fatalCause := none
  inputs := []
  response := none

/-- Reasons to stop with a fault of the machine: there is none. Each fault the spec describes has its entry described
(R167, R168), so it is a next state with the answer `Response.fault` (log 11). -/
inductive Fault where
  deriving DecidableEq, Repr

/-- Reasons the model declines a request. No one of them is an outcome of the hardware (93_implementation_defined.md U8). -/
inductive Refusal where
  /-- An instruction with no meaning yet, raised by an arm of `exec` only; no arm raises it. Safe. -/
  | notModelled (mnemonic : String)
  /-- An operation requested on a record of a type it does not apply to, ill-formed at the boundary
  (42_event_fields.md R136). Raised by `typeEffect` and `allowedEffect`. Safe: nothing is claimed of it. -/
  | illTyped (op : OpName) (t : RecType)
  /-- `TRY.T` or `WRAP.T` for a type that is no event variant, not specified (41_validate_classify.md R88;
  44_link_contracts.md R156). Raised by `typeEffect`. Safe: the hardware may have it. -/
  | notSpecified (op : OpName)
  /-- An operation that names a type TYPE_TABLE leaves out, or takes a record of it: the operand is a name of the table
  (40_framework.md R50; 30_encoding.md R49), so the block has no such operation (log 22). Raised by `typeEffect`, and never
  under the default table. Safe. -/
  | noSuchType (op : OpName) (t : RecType)
  /-- `exec` called with no operation on a record waiting. Raised by `performRecord`; `step` never calls it so. Safe. -/
  | noRequest
  deriving DecidableEq, Repr

end Sys2Proof.Machine
end

