-- ==== Sys2Proof/Machine/Flags.lean ====
section
/-! DEFINITION. The only flag is the FATAL latch (10_state.md R15). This file says when a setter sets it and with which
cause: the width and the alignment contract (44_link_contracts.md R153, R154, R155). -/

namespace Sys2Proof.Machine

/-- The width contract: `v` fits a field of `n` bits (R154). -/
def fits (n v : Nat) : Bool := decide (v < 2 ^ n)

/-- The alignment contract: `v mod a = 0`; `a = 1` is no constraint (R153). -/
def aligned (a v : Nat) : Bool := v % a == 0

/-- The cause a setter of an `n`-bit field with alignment `a` raises on the operand `v`, if any: the width is checked
first (R155; 60_exceptions.md R166). -/
def violation (n a v : Nat) : Option FatalCause :=
  if fits n v then (if aligned a v then none else some .alignmentViolation) else some .widthViolation

end Sys2Proof.Machine
end

