-- ==== Sys2Proof/Machine/Operands.lean ====
section
/-! DEFINITION. Operands: bits of a word, the generic field access (40_framework.md R56, R57) and the table FIELDS with
ALIGN (30_encoding.md R35 to R44; 44_link_contracts.md R153). -/

namespace Sys2Proof.Machine

/-- `r.W[i]` (00_scope.md R4). -/
def wordAt (r : Raw) (i : Fin 4) : Word :=
  match i with
  | 0 => r.w0
  | 1 => r.w1
  | 2 => r.w2
  | 3 => r.w3

/-- `r with W[i] <- x`. -/
def setWordAt (r : Raw) (i : Fin 4) (x : Word) : Raw :=
  match i with
  | 0 => { r with w0 := x }
  | 1 => { r with w1 := x }
  | 2 => { r with w2 := x }
  | 3 => { r with w3 := x }

/-- `mask(hi, lo)` (00_scope.md section 5.2). -/
def bitMask (hi lo : Nat) : Word := BitVec.ofNat 32 (2 ^ (hi - lo + 1) - 1) <<< lo

/-- `x[hi:lo] <- v[hi-lo:0]`: the bits `hi` down to `lo` replaced, every other bit unchanged. -/
def writeBits (x : Word) (hi lo v : Nat) : Word :=
  (x &&& ~~~bitMask hi lo) ||| (BitVec.ofNat 32 v <<< lo &&& bitMask hi lo)

/-- `get_field(r, w, hi, lo)` (R56), zero-extended. -/
def getField (r : Raw) (w : Fin 4) (hi lo : Nat) : BitVec 64 :=
  ((wordAt r w).extractLsb' lo (hi - lo + 1)).setWidth 64

/-- `get_ptr(r)` (R56; R44): the low word first. -/
def getPtr (r : Raw) : BitVec 64 := (r.w1.setWidth 64 <<< 32) ||| r.w0.setWidth 64

/-- The 56 bits of the notification data (42_event_fields.md R128; R44). -/
def getNotificationData (r : Raw) : BitVec 64 := ((r.w1.setWidth 64 <<< 32) ||| r.w0.setWidth 64) >>> 8

/-- `set_field(r, w, hi, lo, v)` (R57): the check, then the write. -/
def setField (r : Raw) (w : Fin 4) (hi lo v : Nat) : Except FatalCause Raw :=
  match violation (hi - lo + 1) 1 v with
  | some c => .error c
  | none => .ok (setWordAt r w (writeBits (wordAt r w) hi lo v))

/-- `set_ptr(r, v, align)` (R57), for an operand of any width (R155). -/
def setPtr (r : Raw) (v align : Nat) : Except FatalCause Raw :=
  match violation 64 align v with
  | some c => .error c
  | none => .ok { r with w0 := BitVec.ofNat 32 v, w1 := BitVec.ofNat 32 (v / 2 ^ 32) }

/-- The notification-data setter (42_event_fields.md R129). -/
def setNotificationData (r : Raw) (v : Nat) : Except FatalCause Raw :=
  match violation 56 1 v with
  | some c => .error c
  | none => .ok { r with w0 := writeBits r.w0 31 8 v, w1 := BitVec.ofNat 32 (v / 2 ^ 24) }

/-- Where a field lies: bits of one word, a 64-bit pointer in words 0 and 1 with its alignment, or the notification
data. -/
inductive Place where
  | bits (w : Fin 4) (hi lo : Nat)
  | pointer (align : Nat)
  | notificationData
  deriving DecidableEq, Repr

/-- FIELDS and ALIGN (42_event_fields.md section 9; 44_link_contracts.md R153). The positions of `vfId`, the
CommandCompletion `slotId`, `dbReason`, `notificationType` and the Link pointer are PRESUMED by the spec (log 8); those
marked X or Q in 30_encoding.md are DEDUCED (log 9). -/
def fieldPlace : Field → Place
  | .transferEventTrbPointer => .pointer 1
  | .transferEventTrbTransferLength => .bits 2 23 0
  | .transferEventEventData => .bits 3 2 2
  | .transferEventEndpointId => .bits 3 20 16
  | .transferEventSlotId => .bits 3 31 24
  | .transferEventCompletionCode => .bits 2 31 24
  | .commandCompletionCommandTrbPointer => .pointer 16
  | .commandCompletionCommandCompletionParameter => .bits 2 23 0
  | .commandCompletionVfId => .bits 3 23 16
  | .commandCompletionSlotId => .bits 3 31 24
  | .commandCompletionCompletionCode => .bits 2 31 24
  | .portStatusChangePortId => .bits 0 31 24
  | .portStatusChangeCompletionCode => .bits 2 31 24
  | .bandwidthRequestSlotId => .bits 3 31 24
  | .bandwidthRequestCompletionCode => .bits 2 31 24
  | .doorbellDbReason => .bits 0 4 0
  | .doorbellCompletionCode => .bits 2 31 24
  | .hostControllerCompletionCode => .bits 2 31 24
  | .deviceNotificationNotificationType => .bits 0 7 4
  | .deviceNotificationNotificationData => .notificationData
  | .deviceNotificationSlotId => .bits 3 31 24
  | .deviceNotificationCompletionCode => .bits 2 31 24
  | .mfindexWrapCompletionCode => .bits 2 31 24
  | .linkRingSegmentPointer => .pointer 16

/-- What a getter's result is: a number, one bit, or a completion code to be looked up. -/
inductive FieldKind where
  | number
  | flag
  | code
  deriving DecidableEq, Repr

/-- The kind of a field: the completion code of every event variant is decoded (43_completion_code.md R144), the
event-data flag is one bit (42_event_fields.md R94). -/
def fieldKind : Field → FieldKind
  | .transferEventEventData => .flag
  | .transferEventCompletionCode | .commandCompletionCompletionCode | .portStatusChangeCompletionCode | .bandwidthRequestCompletionCode
  | .doorbellCompletionCode | .hostControllerCompletionCode | .deviceNotificationCompletionCode | .mfindexWrapCompletionCode => .code
  | _ => .number

/-- The bits a getter reads, zero-extended to 64 (42_event_fields.md, even rules; R152). Total on every record. -/
def readField (f : Field) (r : Raw) : BitVec 64 :=
  match fieldPlace f with
  | .bits w hi lo => getField r w hi lo
  | .pointer _ => getPtr r
  | .notificationData => getNotificationData r

/-- The record a setter gives, or the contract it finds broken (42_event_fields.md, odd rules; R151). -/
def writeField (f : Field) (r : Raw) (v : Nat) : Except FatalCause Raw :=
  match fieldPlace f with
  | .bits w hi lo => setField r w hi lo v
  | .pointer a => setPtr r v a
  | .notificationData => setNotificationData r v

end Sys2Proof.Machine
end

