-- ==== Sys2Proof/Machine/CompletionCode.lean ====
section
/-! DEFINITION. The completion-code decoder (43_completion_code.md). -/

namespace Sys2Proof.Machine

/-- `CC.DECODE n` (R141): the name whose value is `n`, or the byte back. -/
def ccDecode (cfg : Config) (n : BitVec 8) : Except (BitVec 8) CompletionCode :=
  match cfg.ccTable.find? (fun row => row.2 == n) with
  | some row => .ok row.1
  | none => .error n

/-- `cc_value(c)` (R142), where the table has the name. It is notation for laws, not an operation of the block (R146). -/
def ccValue (cfg : Config) (c : CompletionCode) : Option (BitVec 8) := cfg.ccTable.lookup c

/-- The outcome of a completion-code lookup (R141; 60_exceptions.md R162). -/
def ccResponse (cfg : Config) (n : BitVec 8) : Response :=
  match ccDecode cfg n with
  | .ok c => .ok (.code c)
  | .error b => .err (.byte b)

/-- The outcome of a field getter: a value, but for the completion code, which is looked up (R144). -/
def fieldResponse (cfg : Config) (f : Field) (r : Raw) : Response :=
  match fieldKind f with
  | .number => .value (.number (readField f r))
  | .flag => .value (.bit ((readField f r).setWidth 1))
  | .code => ccResponse cfg ((readField f r).setWidth 8)

end Sys2Proof.Machine
end

