-- ==== Sys2Proof/Machine/Validate.lean ====
section
/-! DEFINITION. The reserved-bit validator, its table RESERVED, and classification (41_validate_classify.md). -/

namespace Sys2Proof.Machine

/-- One reserved range: bits `hi` down to `lo` of word `w`. -/
structure BitRange where
  w : Fin 4
  hi : Nat
  lo : Nat
  deriving DecidableEq, Repr

/-- The reserved ranges of HostController (30_encoding.md R40), which are MfindexWrap's under STRICT (R42). -/
def allButCodeReserved : List BitRange := [⟨0, 31, 0⟩, ⟨1, 31, 0⟩, ⟨2, 23, 0⟩, ⟨3, 9, 1⟩, ⟨3, 31, 16⟩]

/-- RESERVED (30_encoding.md R35 to R42). DeviceNotification's row is the resolved one (90_conflicts.md C3, C4; log 9). -/
def reserved (cfg : Config) : EventVariant → List BitRange
  | .transferEvent => [⟨3, 1, 1⟩, ⟨3, 9, 3⟩, ⟨3, 23, 21⟩]
  | .commandCompletion => [⟨0, 3, 0⟩, ⟨3, 9, 1⟩]
  | .portStatusChange => [⟨0, 23, 0⟩, ⟨1, 31, 0⟩, ⟨2, 23, 0⟩, ⟨3, 9, 1⟩, ⟨3, 31, 16⟩]
  | .bandwidthRequest => [⟨0, 31, 0⟩, ⟨1, 31, 0⟩, ⟨2, 23, 0⟩, ⟨3, 9, 1⟩, ⟨3, 23, 16⟩]
  | .doorbell => [⟨0, 31, 5⟩, ⟨1, 31, 0⟩, ⟨2, 23, 0⟩, ⟨3, 9, 1⟩]
  | .hostController => allButCodeReserved
  | .deviceNotification => [⟨0, 3, 0⟩, ⟨2, 23, 0⟩, ⟨3, 9, 1⟩, ⟨3, 23, 16⟩]
  | .mfindexWrap =>
    match cfg.mfindexReserved with
    | .literal => [⟨0, 3, 0⟩, ⟨2, 23, 0⟩, ⟨3, 9, 1⟩, ⟨3, 23, 16⟩]
    | .strict => allButCodeReserved

/-- The reserved range holds zero. -/
def rangeClear (r : Raw) (x : BitRange) : Bool := (wordAt r x.w).extractLsb' x.lo (x.hi - x.lo + 1) == 0

/-- `valid(V, r)` (R70): the one generic validator, over the table. -/
def valid (cfg : Config) (v : EventVariant) (r : Raw) : Bool :=
  cfg.typeTable v.toType == some (tagOf r) && (reserved cfg v).all (rangeClear r)

/-- RESMASK as the format rules print it (30_encoding.md R35 to R42), the second form of R70. -/
def resMask (cfg : Config) : EventVariant → Raw
  | .transferEvent => ⟨0x00000000, 0x00000000, 0x00000000, 0x00E003FA⟩
  | .commandCompletion => ⟨0x0000000F, 0x00000000, 0x00000000, 0x000003FE⟩
  | .portStatusChange => ⟨0x00FFFFFF, 0xFFFFFFFF, 0x00FFFFFF, 0xFFFF03FE⟩
  | .bandwidthRequest => ⟨0xFFFFFFFF, 0xFFFFFFFF, 0x00FFFFFF, 0x00FF03FE⟩
  | .doorbell => ⟨0xFFFFFFE0, 0xFFFFFFFF, 0x00FFFFFF, 0x000003FE⟩
  | .hostController => ⟨0xFFFFFFFF, 0xFFFFFFFF, 0x00FFFFFF, 0xFFFF03FE⟩
  | .deviceNotification => ⟨0x0000000F, 0x00000000, 0x00FFFFFF, 0x00FF03FE⟩
  | .mfindexWrap =>
    match cfg.mfindexReserved with
    | .literal => ⟨0x0000000F, 0x00000000, 0x00FFFFFF, 0x00FF03FE⟩
    | .strict => ⟨0xFFFFFFFF, 0xFFFFFFFF, 0x00FFFFFF, 0xFFFF03FE⟩

/-- `W[3]` of a record whose every bit but the tag is zero (40_framework.md R50). -/
def tagWord (tag : BitVec 6) : Word := tag.setWidth 32 <<< 10

/-- `TRY.V w` (R70 to R78): the same words typed `V`, or the same words back. -/
def tryV (cfg : Config) (v : EventVariant) (w : Raw) : Except Raw Raw :=
  if valid cfg v w then .ok w else .error w

/-- EVENT_ORDER (00_scope.md section 4). -/
def eventOrder : List EventVariant :=
  [.transferEvent, .commandCompletion, .portStatusChange, .bandwidthRequest,
   .doorbell, .hostController, .deviceNotification, .mfindexWrap]

/-- The first variant of a list that accepts the record. -/
def firstMatch (cfg : Config) (w : Raw) : List EventVariant → Except Raw (EventVariant × Raw)
  | [] => .error w
  | v :: rest =>
    match tryV cfg v w with
    | .ok r => .ok (v, r)
    | .error _ => firstMatch cfg w rest

/-- `CLASSIFY w` (R79): the validators in the fixed order, first match wins, else the words back. -/
def classify (cfg : Config) (w : Raw) : Except Raw (EventVariant × Raw) := firstMatch cfg w eventOrder

end Sys2Proof.Machine
end

