-- ==== Sys2Proof/Machine/Ops.lean ====
section
/-! DEFINITION. The shared operations: the record framework (40_framework.md), what each requested operation does, and
the one place where the FATAL latch is read, set and cleared (60_exceptions.md R166, R167, R168; 70_reset_and_hazards.md
R180). -/

namespace Sys2Proof.Machine

/-! The record framework. -/

/-- `NEW.T` (R50), `tag` the tag of `T`: all zero, the tag stamped. -/
def newRecord (tag : BitVec 6) : Raw := ⟨0, 0, 0, tagWord tag⟩

/-- `GET.C r` (R51). -/
def getCycle (r : Raw) : BitVec 1 := r.w3.extractLsb' 0 1

/-- `SET.C r, b` (R52). -/
def setCycle (r : Raw) (b : BitVec 1) : Raw := { r with w3 := writeBits r.w3 0 0 b.toNat }

/-- A setter on a record: the new record, or the contract broken (R57, R58). -/
def SetterCall.apply (call : SetterCall) (r : Raw) : Except FatalCause Raw :=
  match call with
  | .cycle b => .ok (setCycle r b)
  | .field f v => writeField f r v.toNat

/-- A setter applies to records typed `t` (R52; 42_event_fields.md R136). -/
def SetterCall.appliesTo (t : RecType) : SetterCall → Bool
  | .cycle _ => true
  | .field f _ => f.owner == t

/-! The latch. -/

/-- The operation is answered with `x` and the latch is not touched (R160, R172). -/
def State.complete (s : State) (x : Response) : State :=
  { s with inputs := s.inputs.tail, response := some x }

/-- Fault entry, `raise Fatal(cause)` in the operation `op` (R167): FATAL <- 1, FATAL_CAUSE <- (cause, op), no result,
nothing else. -/
def State.raiseFatal (s : State) (cause : FatalCause) (op : OpName) : State :=
  { s with fatal := true, fatalCause := some (cause, op), inputs := s.inputs.tail, response := some .fault }

/-- Reset, the only exit from the fault (R168; 70_reset_and_hazards.md R180): FATAL <- 0, FATAL_CAUSE <- None. The host's
later inputs stay the host's (R181; log 15). -/
def State.takeReset (s : State) : State :=
  { s with fatal := false, fatalCause := none, inputs := s.inputs.tail, response := none }

/-- A step in which the host issues nothing: the block keeps its latch and answers nothing (log 4). -/
def State.idle (s : State) : State := { s with response := none }

/-- The host issues `x` before everything it has still to issue. -/
def State.present (x : Input) (s : State) : State := { s with inputs := x :: s.inputs }

/-- What an operation does by its own rule, before the gate: answer, raise a fatal cause, or be no operation of the
block at all. -/
inductive Effect where
  | respond (x : Response)
  | fatal (c : FatalCause)
  | refuse (ρ : Refusal)
  deriving DecidableEq, Repr

/-- One operation of the block (R166): a request that is no operation is declined at the boundary (log 12); while
FATAL = 1 the gate answers with the fault and changes nothing (R168); else the operation's own rule. -/
def perform (op : OpName) (e : Effect) (s : State) : Host.Outcome State Fault Refusal :=
  match e with
  | .refuse ρ => .refused ρ
  | .respond x => .next (if s.fatal then s.complete .fault else s.complete x)
  | .fatal c => .next (if s.fatal then s.complete .fault else s.raiseFatal c op)

/-! What each operation does. -/

/-- An operation that names type `t`, whose tag is `tag`, or takes the record `r` typed `t`. -/
def typedEffect (cfg : Config) (t : RecType) (tag : BitVec 6) (r : Raw) : TypeOp → Effect
  | .new => .respond (.value (.typed t (newRecord tag)))
  | .getC => .respond (.value (.bit (getCycle r)))
  | .set call =>
    if SetterCall.appliesTo t call then
      match SetterCall.apply call r with
      | .ok r' => .respond (.value (.typed t r'))
      | .error c => .fatal c
    else .refuse (.illTyped call.name t)
  | .get f => if f.owner = t then .respond (fieldResponse cfg f r) else .refuse (.illTyped (.get f) t)
  | .intoRaw => .respond (.value (.raw r))
  | .fromRaw => .respond (.value (.typed t r))
  | .tryV =>
    match t.event? with
    | some v =>
      match tryV cfg v r with
      | .ok r' => .respond (.ok (.typed t r'))
      | .error w => .respond (.err (.raw w))
    | none => .refuse (.notSpecified (.tryV t))
  | .wrap =>
    match t.event? with
    | some v => .respond (.value (.allowed v r))
    | none => .refuse (.notSpecified (.wrap t))

/-- The same for any type name: one that TYPE_TABLE leaves out is no type of the instance (R50; log 22). -/
def typeEffect (cfg : Config) (t : RecType) (r : Raw) (op : TypeOp) : Effect :=
  match cfg.typeTable t with
  | none => .refuse (.noSuchType (op.name t) t)
  | some tag => typedEffect cfg t tag r op

/-- An operation on `Allowed.V r`, `V` the type `t` (41_validate_classify.md R82, R83). Only an event variant is an
alternative of the union. -/
def allowedEffect (t : RecType) (r : Raw) (op : AllowedOp) : Effect :=
  match t.event? with
  | none => .refuse (.illTyped op.name t)
  | some v =>
    match op with
    | .getC => .respond (.value (.bit (getCycle r)))
    | .setC b => .respond (.value (.allowed v (setCycle r b)))
    | .intoRaw => .respond (.value (.raw r))

/-- An operation on a raw record (R55; 41_validate_classify.md R79). -/
def rawEffect (cfg : Config) (w : Raw) : RawOp → Effect
  | .typeOf =>
    match typeOfTag cfg (tagOf w) with
    | some t => .respond (.ok (.typeName t))
    | none => .respond (.err (.tag (tagOf w)))
  | .classify =>
    match classify cfg w with
    | .ok (v, r) => .respond (.ok (.allowed v r))
    | .error w' => .respond (.err (.raw w'))

/-- The meaning every arm of `exec` shares: the operation the host has issued, done on the record `r` viewed as `t`. -/
def performRecord (cfg : Config) (t : RecType) (r : Raw) (s : State) : Host.Outcome State Fault Refusal :=
  match s.inputs with
  | .onType op _ _ :: _ => perform (op.name t) (typeEffect cfg t r op) s
  | .onAllowed op _ _ :: _ => perform op.name (allowedEffect t r op) s
  | .onRaw op _ :: _ => perform op.name (rawEffect cfg r op) s
  | _ => .refused .noRequest

/-- An operation on a raw record that decodes to no well-formed instruction. It is answered by the same rules: an
unknown tag or a dirty reserved bit is a recoverable failure (30_encoding.md R45, R46; 60_exceptions.md R161). -/
def performRaw (cfg : Config) (op : RawOp) (w : Raw) (s : State) : Host.Outcome State Fault Refusal :=
  perform op.name (rawEffect cfg w op) s

/-- `CC.DECODE n` (43_completion_code.md R141), which takes no record. -/
def performCcDecode (cfg : Config) (n : BitVec 8) (s : State) : Host.Outcome State Fault Refusal :=
  perform .ccDecode (.respond (ccResponse cfg n)) s

end Sys2Proof.Machine
end

