-- ==== Sys2Proof/Machine/CommandTypes.lean ====
section
/-! DEFINITION. The meanings of the command-ring record types (30_encoding.md R31; 44_link_contracts.md R156): the operation the host has issued, done on a record of the type. -/

namespace Sys2Proof.Machine

/-- EnableSlot, tag 9 (format R31): the operations of any type (R50 to R55). -/
def execEnableSlot (r : TagOnly) (s : State) : Host.Outcome State Fault Refusal :=
  performRecord Config.default .enableSlot r.toRaw s

/-- DisableSlot, tag 10 (format R31): the operations of any type (R50 to R55). -/
def execDisableSlot (r : TagOnly) (s : State) : Host.Outcome State Fault Refusal :=
  performRecord Config.default .disableSlot r.toRaw s

/-- AddressDevice, tag 11 (format R31): the operations of any type (R50 to R55). -/
def execAddressDevice (r : TagOnly) (s : State) : Host.Outcome State Fault Refusal :=
  performRecord Config.default .addressDevice r.toRaw s

/-- ConfigureEndpoint, tag 12 (format R31): the operations of any type (R50 to R55). -/
def execConfigureEndpoint (r : TagOnly) (s : State) : Host.Outcome State Fault Refusal :=
  performRecord Config.default .configureEndpoint r.toRaw s

/-- EvaluateContext, tag 13 (format R31): the operations of any type (R50 to R55). -/
def execEvaluateContext (r : TagOnly) (s : State) : Host.Outcome State Fault Refusal :=
  performRecord Config.default .evaluateContext r.toRaw s

/-- ResetEndpoint, tag 14 (format R31): the operations of any type (R50 to R55). -/
def execResetEndpoint (r : TagOnly) (s : State) : Host.Outcome State Fault Refusal :=
  performRecord Config.default .resetEndpoint r.toRaw s

/-- StopEndpoint, tag 15 (format R31): the operations of any type (R50 to R55). -/
def execStopEndpoint (r : TagOnly) (s : State) : Host.Outcome State Fault Refusal :=
  performRecord Config.default .stopEndpoint r.toRaw s

/-- SetTrDequeuePointer, tag 16 (format R31): the operations of any type (R50 to R55). -/
def execSetTrDequeuePointer (r : TagOnly) (s : State) : Host.Outcome State Fault Refusal :=
  performRecord Config.default .setTrDequeuePointer r.toRaw s

/-- ResetDevice, tag 17 (format R31): the operations of any type (R50 to R55). -/
def execResetDevice (r : TagOnly) (s : State) : Host.Outcome State Fault Refusal :=
  performRecord Config.default .resetDevice r.toRaw s

/-- ForceEvent, tag 18 (format R31): the operations of any type (R50 to R55). -/
def execForceEvent (r : TagOnly) (s : State) : Host.Outcome State Fault Refusal :=
  performRecord Config.default .forceEvent r.toRaw s

/-- NegotiateBandwidth, tag 19 (format R31): the operations of any type (R50 to R55). -/
def execNegotiateBandwidth (r : TagOnly) (s : State) : Host.Outcome State Fault Refusal :=
  performRecord Config.default .negotiateBandwidth r.toRaw s

/-- SetLatencyToleranceValue, tag 20 (format R31): the operations of any type (R50 to R55). -/
def execSetLatencyToleranceValue (r : TagOnly) (s : State) : Host.Outcome State Fault Refusal :=
  performRecord Config.default .setLatencyToleranceValue r.toRaw s

/-- GetPortBandwidth, tag 21 (format R31): the operations of any type (R50 to R55). -/
def execGetPortBandwidth (r : TagOnly) (s : State) : Host.Outcome State Fault Refusal :=
  performRecord Config.default .getPortBandwidth r.toRaw s

/-- ForceHeader, tag 22 (format R31): the operations of any type (R50 to R55). -/
def execForceHeader (r : TagOnly) (s : State) : Host.Outcome State Fault Refusal :=
  performRecord Config.default .forceHeader r.toRaw s

/-- NoopCommand, tag 23 (format R31): the operations of any type (R50 to R55). -/
def execNoopCommand (r : TagOnly) (s : State) : Host.Outcome State Fault Refusal :=
  performRecord Config.default .noopCommand r.toRaw s

/-- GetExtendedProperty, tag 24 (format R31): the operations of any type (R50 to R55). -/
def execGetExtendedProperty (r : TagOnly) (s : State) : Host.Outcome State Fault Refusal :=
  performRecord Config.default .getExtendedProperty r.toRaw s

/-- SetExtendedProperty, tag 25 (format R31): the operations of any type (R50 to R55). -/
def execSetExtendedProperty (r : TagOnly) (s : State) : Host.Outcome State Fault Refusal :=
  performRecord Config.default .setExtendedProperty r.toRaw s

end Sys2Proof.Machine
end

