-- ==== Sys2Proof/Machine/EventTypes.lean ====
section
/-! DEFINITION. The meanings of the eight event variants (30_encoding.md R35 to R42): the operation the host has issued, done on a record of the type. -/

namespace Sys2Proof.Machine

/-- TransferEvent, tag 32 (format R35): the operations of any type (R50 to R55), `TRY.TransferEvent` (R71), `WRAP` and the union (R81 to R83), and its
field getters and setters (R90 to R101). -/
def execTransferEvent (r : TransferEventRec) (s : State) : Host.Outcome State Fault Refusal :=
  performRecord Config.default .transferEvent r.toRaw s

/-- CommandCompletion, tag 33 (format R36): the operations of any type (R50 to R55), `TRY.CommandCompletion` (R72), `WRAP` and the union (R81 to R83), and its
field getters and setters (R102 to R111). -/
def execCommandCompletion (r : CommandCompletionRec) (s : State) : Host.Outcome State Fault Refusal :=
  performRecord Config.default .commandCompletion r.toRaw s

/-- PortStatusChange, tag 34 (format R37): the operations of any type (R50 to R55), `TRY.PortStatusChange` (R73), `WRAP` and the union (R81 to R83), and its
field getters and setters (R112 to R115). -/
def execPortStatusChange (r : PortStatusChangeRec) (s : State) : Host.Outcome State Fault Refusal :=
  performRecord Config.default .portStatusChange r.toRaw s

/-- BandwidthRequest, tag 35 (format R38): the operations of any type (R50 to R55), `TRY.BandwidthRequest` (R74), `WRAP` and the union (R81 to R83), and its
field getters and setters (R116 to R119). -/
def execBandwidthRequest (r : BandwidthRequestRec) (s : State) : Host.Outcome State Fault Refusal :=
  performRecord Config.default .bandwidthRequest r.toRaw s

/-- Doorbell, tag 36 (format R39): the operations of any type (R50 to R55), `TRY.Doorbell` (R75), `WRAP` and the union (R81 to R83), and its
field getters and setters (R120 to R123). -/
def execDoorbell (r : DoorbellRec) (s : State) : Host.Outcome State Fault Refusal :=
  performRecord Config.default .doorbell r.toRaw s

/-- HostController, tag 37 (format R40): the operations of any type (R50 to R55), `TRY.HostController` (R76), `WRAP` and the union (R81 to R83), and its
field getters and setters (R124 to R125). -/
def execHostController (r : HostControllerRec) (s : State) : Host.Outcome State Fault Refusal :=
  performRecord Config.default .hostController r.toRaw s

/-- DeviceNotification, tag 38 (format R41): the operations of any type (R50 to R55), `TRY.DeviceNotification` (R77), `WRAP` and the union (R81 to R83), and its
field getters and setters (R126 to R133). -/
def execDeviceNotification (r : DeviceNotificationRec) (s : State) : Host.Outcome State Fault Refusal :=
  performRecord Config.default .deviceNotification r.toRaw s

/-- MfindexWrap, tag 39 (format R42): the operations of any type (R50 to R55), `TRY.MfindexWrap` (R78), `WRAP` and the union (R81 to R83), and its
field getters and setters (R134 to R135). -/
def execMfindexWrap (r : MfindexWrapRec) (s : State) : Host.Outcome State Fault Refusal :=
  performRecord Config.default .mfindexWrap r.toRaw s

end Sys2Proof.Machine
end

