-- ==== Sys2Proof/Machine/TransferTypes.lean ====
section
/-! DEFINITION. The meanings of the transfer-ring record types and Link (30_encoding.md R31, R43; 44_link_contracts.md R150, R156): the operation the host has issued, done on a record of the type. -/

namespace Sys2Proof.Machine

/-- Normal, tag 1 (format R31): the operations of any type (R50 to R55). -/
def execNormal (r : TagOnly) (s : State) : Host.Outcome State Fault Refusal :=
  performRecord Config.default .normal r.toRaw s

/-- SetupStage, tag 2 (format R31): the operations of any type (R50 to R55). -/
def execSetupStage (r : TagOnly) (s : State) : Host.Outcome State Fault Refusal :=
  performRecord Config.default .setupStage r.toRaw s

/-- DataStage, tag 3 (format R31): the operations of any type (R50 to R55). -/
def execDataStage (r : TagOnly) (s : State) : Host.Outcome State Fault Refusal :=
  performRecord Config.default .dataStage r.toRaw s

/-- StatusStage, tag 4 (format R31): the operations of any type (R50 to R55). -/
def execStatusStage (r : TagOnly) (s : State) : Host.Outcome State Fault Refusal :=
  performRecord Config.default .statusStage r.toRaw s

/-- Isoch, tag 5 (format R31): the operations of any type (R50 to R55). -/
def execIsoch (r : TagOnly) (s : State) : Host.Outcome State Fault Refusal :=
  performRecord Config.default .isoch r.toRaw s

/-- Link, tag 6 (format R43): the operations of any type (R50 to R55) and the pointer pair (R151, R152). -/
def execLink (r : LinkRec) (s : State) : Host.Outcome State Fault Refusal :=
  performRecord Config.default .link r.toRaw s

/-- EventData, tag 7 (format R31): the operations of any type (R50 to R55). -/
def execEventData (r : TagOnly) (s : State) : Host.Outcome State Fault Refusal :=
  performRecord Config.default .eventData r.toRaw s

/-- NoopTransfer, tag 8 (format R31): the operations of any type (R50 to R55). -/
def execNoopTransfer (r : TagOnly) (s : State) : Host.Outcome State Fault Refusal :=
  performRecord Config.default .noopTransfer r.toRaw s

end Sys2Proof.Machine
end

