-- ==== Sys2Proof/Machine/Dispatch.lean ====
section
/-! DEFINITION. The dispatch: one arm per record type. -/

namespace Sys2Proof.Machine

def exec (i : Instr) (s : State) : Host.Outcome State Fault Refusal :=
  match i with
  | .normal r => Sys2Proof.Machine.execNormal r s
  | .setupStage r => Sys2Proof.Machine.execSetupStage r s
  | .dataStage r => Sys2Proof.Machine.execDataStage r s
  | .statusStage r => Sys2Proof.Machine.execStatusStage r s
  | .isoch r => Sys2Proof.Machine.execIsoch r s
  | .link r => Sys2Proof.Machine.execLink r s
  | .eventData r => Sys2Proof.Machine.execEventData r s
  | .noopTransfer r => Sys2Proof.Machine.execNoopTransfer r s
  | .enableSlot r => Sys2Proof.Machine.execEnableSlot r s
  | .disableSlot r => Sys2Proof.Machine.execDisableSlot r s
  | .addressDevice r => Sys2Proof.Machine.execAddressDevice r s
  | .configureEndpoint r => Sys2Proof.Machine.execConfigureEndpoint r s
  | .evaluateContext r => Sys2Proof.Machine.execEvaluateContext r s
  | .resetEndpoint r => Sys2Proof.Machine.execResetEndpoint r s
  | .stopEndpoint r => Sys2Proof.Machine.execStopEndpoint r s
  | .setTrDequeuePointer r => Sys2Proof.Machine.execSetTrDequeuePointer r s
  | .resetDevice r => Sys2Proof.Machine.execResetDevice r s
  | .forceEvent r => Sys2Proof.Machine.execForceEvent r s
  | .negotiateBandwidth r => Sys2Proof.Machine.execNegotiateBandwidth r s
  | .setLatencyToleranceValue r => Sys2Proof.Machine.execSetLatencyToleranceValue r s
  | .getPortBandwidth r => Sys2Proof.Machine.execGetPortBandwidth r s
  | .forceHeader r => Sys2Proof.Machine.execForceHeader r s
  | .noopCommand r => Sys2Proof.Machine.execNoopCommand r s
  | .getExtendedProperty r => Sys2Proof.Machine.execGetExtendedProperty r s
  | .setExtendedProperty r => Sys2Proof.Machine.execSetExtendedProperty r s
  | .transferEvent r => Sys2Proof.Machine.execTransferEvent r s
  | .commandCompletion r => Sys2Proof.Machine.execCommandCompletion r s
  | .portStatusChange r => Sys2Proof.Machine.execPortStatusChange r s
  | .bandwidthRequest r => Sys2Proof.Machine.execBandwidthRequest r s
  | .doorbell r => Sys2Proof.Machine.execDoorbell r s
  | .hostController r => Sys2Proof.Machine.execHostController r s
  | .deviceNotification r => Sys2Proof.Machine.execDeviceNotification r s
  | .mfindexWrap r => Sys2Proof.Machine.execMfindexWrap r s

end Sys2Proof.Machine
end

