-- ==== Sys2Proof/Machine/Fetch.lean ====
section
/-! DEFINITION. What the next step runs: the host's oldest input, its record decoded. The block fetches nothing by itself
(10_state.md R11); the record comes with the operation (R13). -/

namespace Sys2Proof.Machine

/-- What a step finds at its input. -/
inductive Fetched where
  /-- nothing is issued -/
  | nothing
  /-- reset is asserted -/
  | reset
  /-- `CC.DECODE n` -/
  | ccDecode (n : BitVec 8)
  /-- an operation on a record, decoded -/
  | record (i : Instr)
  /-- an operation on a raw record that decodes to no well-formed instruction -/
  | undecoded (op : RawOp) (w : Raw)
  deriving DecidableEq, Repr

/-- A typed record is viewed as its type, which the host knows statically (R19); a raw record is decoded by its tag. -/
def fetch (cfg : Config) (s : State) : Fetched :=
  match s.inputs with
  | [] => .nothing
  | .reset :: _ => .reset
  | .ccDecode n :: _ => .ccDecode n
  | .onType _ t r :: _ => .record (Instr.view t r)
  | .onAllowed _ v r :: _ => .record (Instr.view v.toType r)
  | .onRaw op w :: _ =>
    match decode cfg w with
    | .ok i => .record i
    | .error _ => .undecoded op w

/-- One step, for the configuration `cfg` and the meaning `run` of an instruction: what the host has issued, done. -/
def stepBy (cfg : Config) (run : Instr → State → Host.Outcome State Fault Refusal) (s : State) :
    Host.Outcome State Fault Refusal :=
  match fetch cfg s with
  | .nothing => .next s.idle
  | .reset => .next s.takeReset
  | .ccDecode n => performCcDecode cfg n s
  | .record i => run i s
  | .undecoded op w => performRaw cfg op w s

/-- The input by which the record of a table word is handed to the block: the per-slot operation of the source's ring
consumer, `CLASSIFY` (00_scope.md section 6, Classification; log 5). -/
def tableInput (nbits w : Nat) : Input := .onRaw .classify (tableRaw nbits w)

end Sys2Proof.Machine
end

