-- ==== Sys2Proof/Machine/Step.lean ====
section
/-! DEFINITION. The step: one operation, atomically (10_state.md R12). -/

namespace Sys2Proof.Machine

/-- One step of the instance with the default parameters. -/
def step (s : State) : Host.Outcome State Fault Refusal := stepBy Config.default exec s

/-- The state in which the next step takes the record of the table word `w` (log 5). -/
def State.withFetchWord (s : State) (nbits w : Nat) : State := s.present (tableInput nbits w)

end Sys2Proof.Machine
end

