-- ==== Sys2Proof/Machine/Configured.lean ====
section
/-! DEFINITION. The block with its tables as configuration and not as state (10_state.md R17; 30_encoding.md R33;
43_completion_code.md R140): the meaning of every instruction, the step and the machine, for any configuration. The host's
`exec`, `step` and `core` take none and are the instance with the default parameters (log 21). -/

namespace Sys2Proof.Machine

/-- The meaning of any instruction in the instance configured with `cfg`. -/
def execWith (cfg : Config) (i : Instr) (s : State) : Host.Outcome State Fault Refusal :=
  performRecord cfg i.type (encode i) s

/-- One step of the instance configured with `cfg`. -/
def stepWith (cfg : Config) (s : State) : Host.Outcome State Fault Refusal := stepBy cfg (execWith cfg) s

/-- The instance configured with `cfg`. Reset is the same for every instance: the tables are no state (R17). -/
def coreWith (cfg : Config) : Host.Core :=
  { State := State
    Fault := Fault
    Refusal := Refusal
    step := stepWith cfg
    reset := State.reset }

end Sys2Proof.Machine
end

