-- ==== Sys2Proof/Machine/Pseudo.lean ====
section
/-! DEFINITION. The pseudo-operations of 30_encoding.md R49, each an abbreviation and nothing more. -/

namespace Sys2Proof.Machine

/-- `SET.CYCLE r` -/
def setCycleOn (t : RecType) (r : Raw) : Input := .onType (.set (.cycle 1)) t r

/-- `CLR.CYCLE r` -/
def clearCycleOn (t : RecType) (r : Raw) : Input := .onType (.set (.cycle 0)) t r

/-- `TOGGLE.C r` -/
def toggleCycleOn (t : RecType) (r : Raw) : Input := .onType (.set (.cycle (1 - getCycle r))) t r

/-- `RECLASSIFY r` -/
def reclassifyOf (r : Raw) : Input := .onRaw .classify r

/-- `A.TYPE a`: the variant name an Allowed holds, a match on the union. -/
def allowedType : Value → Option EventVariant
  | .allowed v _ => some v
  | _ => none

/-- Fluent chaining, `r |> SET a |> SET b`: function composition; a fatal setter ends the chain with no result and the
setters after it are never done (40_framework.md R58; 60_exceptions.md R169). -/
def chain : List SetterCall → Raw → Except FatalCause Raw
  | [], r => .ok r
  | call :: rest, r =>
    match SetterCall.apply call r with
    | .ok r' => chain rest r'
    | .error c => .error c

end Sys2Proof.Machine
end

