-- ==== Sys2Proof/Safety.lean ====
section
/-! DEFINITION. What counts as a safe run, in the terms the statements use: the setter contracts as the spec tabulates
them, which inputs are operations of the block, and the invariant of the FATAL latch. -/

namespace Sys2Proof.Machine

/-- The setter contracts as the table of 42_event_fields.md section 9 and 44_link_contracts.md R153 print them, written
apart from FIELDS so that the two can be held against each other. -/
def setterContract (f : Field) (v : Nat) : Bool :=
  match f with
  | .transferEventTrbPointer => true
  | .transferEventTrbTransferLength => decide (v < 16777216)
  | .transferEventEventData => decide (v < 2)
  | .transferEventEndpointId => decide (v < 32)
  | .transferEventSlotId => decide (v < 256)
  | .transferEventCompletionCode => decide (v < 256)
  | .commandCompletionCommandTrbPointer => decide (v % 16 = 0)
  | .commandCompletionCommandCompletionParameter => decide (v < 16777216)
  | .commandCompletionVfId => decide (v < 256)
  | .commandCompletionSlotId => decide (v < 256)
  | .commandCompletionCompletionCode => decide (v < 256)
  | .portStatusChangePortId => decide (v < 256)
  | .portStatusChangeCompletionCode => decide (v < 256)
  | .bandwidthRequestSlotId => decide (v < 256)
  | .bandwidthRequestCompletionCode => decide (v < 256)
  | .doorbellDbReason => decide (v < 32)
  | .doorbellCompletionCode => decide (v < 256)
  | .hostControllerCompletionCode => decide (v < 256)
  | .deviceNotificationNotificationType => decide (v < 16)
  | .deviceNotificationNotificationData => decide (v < 72057594037927936)
  | .deviceNotificationSlotId => decide (v < 256)
  | .deviceNotificationCompletionCode => decide (v < 256)
  | .mfindexWrapCompletionCode => decide (v < 256)
  | .linkRingSegmentPointer => decide (v % 16 = 0)

/-- The one cause a setter can raise with OPW = 64, if it can raise any (60_exceptions.md R163, R164). -/
def setterCause : Field → Option FatalCause
  | .transferEventTrbPointer => none
  | .transferEventEventData => none
  | .commandCompletionCommandTrbPointer => some .alignmentViolation
  | .linkRingSegmentPointer => some .alignmentViolation
  | _ => some .widthViolation

/-- The contract of a setter holds of its operand; the cycle bit has none (40_framework.md R52). -/
def SetterCall.contractHolds : SetterCall → Bool
  | .cycle _ => true
  | .field f v => setterContract f v.toNat

/-- A type-named operation that its type has (R88, R136, R156). -/
def typeHasOp (t : RecType) : TypeOp → Bool
  | .set call => SetterCall.appliesTo t call
  | .get f => f.owner == t
  | .tryV => t.event?.isSome
  | .wrap => t.event?.isSome
  | _ => true

/-- The input asks for an operation of the block configured with `cfg`, and not for one the model declines. A type name
must be in TYPE_TABLE (R50). Reset is an input and no operation (60_exceptions.md R173). -/
def isOperation (cfg : Config) : Input → Bool
  | .reset => false
  | .onType op t _ => (cfg.typeTable t).isSome && typeHasOp t op
  | .onAllowed _ _ _ => true
  | .onRaw _ _ => true
  | .ccDecode _ => true

/-- The input breaks no setter contract: the precondition a host proves (70_reset_and_hazards.md R184 item 5). -/
def keepsContract : Input → Bool
  | .onType (.set call) _ _ => SetterCall.contractHolds call
  | _ => true

/-- The cause recorded is one the operation recorded can raise (R163, R164). -/
def causeLegal : FatalCause × OpName → Bool
  | (c, .set f) => setterCause f == some c
  | _ => false

/-- The invariant of the latch: FATAL_CAUSE is None exactly while FATAL = 0 (10_state.md R15), and else names a setter
with a cause it can raise. -/
def State.latchConsistent (s : State) : Bool :=
  s.fatal == s.fatalCause.isSome && s.fatalCause.all causeLegal

/-- The state after an answer in `s`: only `response` differs. -/
def answered (s : State) (x : Response) : State := { s with response := some x }

/-- The state after fault entry from `s` (60_exceptions.md R167). -/
def faulted (s : State) (c : FatalCause) (op : OpName) : State :=
  { s with fatal := true, fatalCause := some (c, op), response := some .fault }

end Sys2Proof.Machine
end

