-- ==== Sys2Proof/Certificates/Slice0/Obligations.lean ====
section
/-! DEFINITION. The statements for the provers. A request is put before a state by `s.present x`, so that every state
that has an input waiting is of this form; `answered` and `faulted` give the whole next state, so that each equation is
its own frame. -/

open Sys2Proof Sys2Proof.Machine

namespace Sys2Proof.Statements

/-- From every state with FATAL = 0 in which the host requests `op`, `i` completes and answers `x`, and nothing else of
the state changes. -/
def typeOpAnswers (i : Instr) (op : TypeOp) (x : Response) : Prop :=
  ∀ (s : State) (t : RecType) (w : Raw), s.fatal = false →
    exec i (s.present (.onType op t w)) = .next (answered s x)

/-- The same for the instance configured with `cfg`. -/
def typeOpAnswersWith (cfg : Config) (i : Instr) (op : TypeOp) (x : Response) : Prop :=
  ∀ (s : State) (t : RecType) (w : Raw), s.fatal = false →
    execWith cfg i (s.present (.onType op t w)) = .next (answered s x)

/-- The same for an operation on the union Allowed. -/
def allowedOpAnswers (i : Instr) (op : AllowedOp) (x : Response) : Prop :=
  ∀ (s : State) (v : EventVariant) (w : Raw), s.fatal = false →
    exec i (s.present (.onAllowed op v w)) = .next (answered s x)

/-- `GET.V.f` on `i` answers with the number `x` of the record's words. -/
def getsNumber (i : Instr) (f : Field) (x : Raw → BitVec 64) : Prop :=
  typeOpAnswers i (.get f) (.value (.number (x (encode i))))

/-- `GET.V.completion_code` on `i` answers with the lookup of `W[2][31:24]`. -/
def getsCode (i : Instr) (f : Field) : Prop :=
  typeOpAnswers i (.get f) (ccResponse Config.default ((encode i).w2.extractLsb' 24 8))

/-- `SET.V.f` on `i` admits every operand `v < 2^n` and gives `upd v`, a record of the same type; on every other operand
it is the fault WidthViolation and nothing else. -/
def setsBits (i : Instr) (f : Field) (n : Nat) (upd : BitVec f.operandWidth → Instr) : Prop :=
  ∀ (s : State) (t : RecType) (w : Raw) (v : BitVec f.operandWidth), s.fatal = false →
    (v.toNat < 2 ^ n →
      exec i (s.present (.onType (.set (.field f v)) t w)) =
        .next (answered s (.value (.typed i.type (encode (upd v)))))) ∧
    (2 ^ n ≤ v.toNat →
      exec i (s.present (.onType (.set (.field f v)) t w)) = .next (faulted s .widthViolation (.set f)))

/-- `SET.V.f` on `i` admits every operand and gives `upd v`. -/
def setsAlways (i : Instr) (f : Field) (upd : BitVec f.operandWidth → Instr) : Prop :=
  ∀ v : BitVec f.operandWidth, typeOpAnswers i (.set (.field f v)) (.value (.typed i.type (encode (upd v))))

/-- `SET.V.f` on `i` admits every multiple of 16 and gives `upd v`; on every other operand it is the fault
AlignmentViolation and nothing else. -/
def setsPointer16 (i : Instr) (f : Field) (upd : BitVec f.operandWidth → Instr) : Prop :=
  ∀ (s : State) (t : RecType) (w : Raw) (v : BitVec f.operandWidth), s.fatal = false →
    (v.toNat % 16 = 0 →
      exec i (s.present (.onType (.set (.field f v)) t w)) =
        .next (answered s (.value (.typed i.type (encode (upd v)))))) ∧
    (v.toNat % 16 ≠ 0 →
      exec i (s.present (.onType (.set (.field f v)) t w)) = .next (faulted s .alignmentViolation (.set f)))

/-- `TRY.V` on `i` answers Ok with the same words typed, exactly when `p` holds of them, else Err with the words. -/
def triesBy (i : Instr) (p : Raw → Prop) : Prop :=
  (p (encode i) → typeOpAnswers i .tryV (.ok (.typed i.type (encode i)))) ∧
  (¬ p (encode i) → typeOpAnswers i .tryV (.err (.raw (encode i))))

/-- Bit `k` of word `w` lies in the field, as the table of 42_event_fields.md section 9 prints it (columns word and bits),
written apart from the model's FIELDS. -/
def fieldHasBit (f : Field) (w : Fin 4) (k : Nat) : Bool :=
  match f with
  | .transferEventTrbPointer => w == 0 || w == 1
  | .commandCompletionCommandTrbPointer => w == 0 || w == 1
  | .linkRingSegmentPointer => w == 0 || w == 1
  | .transferEventTrbTransferLength => w == 2 && decide (k ≤ 23)
  | .commandCompletionCommandCompletionParameter => w == 2 && decide (k ≤ 23)
  | .transferEventEventData => w == 3 && k == 2
  | .transferEventEndpointId => w == 3 && decide (16 ≤ k ∧ k ≤ 20)
  | .commandCompletionVfId => w == 3 && decide (16 ≤ k ∧ k ≤ 23)
  | .transferEventSlotId => w == 3 && decide (24 ≤ k)
  | .commandCompletionSlotId => w == 3 && decide (24 ≤ k)
  | .bandwidthRequestSlotId => w == 3 && decide (24 ≤ k)
  | .deviceNotificationSlotId => w == 3 && decide (24 ≤ k)
  | .portStatusChangePortId => w == 0 && decide (24 ≤ k)
  | .doorbellDbReason => w == 0 && decide (k ≤ 4)
  | .deviceNotificationNotificationType => w == 0 && decide (4 ≤ k ∧ k ≤ 7)
  | .deviceNotificationNotificationData => (w == 0 && decide (8 ≤ k)) || w == 1
  | .transferEventCompletionCode | .commandCompletionCompletionCode | .portStatusChangeCompletionCode
  | .bandwidthRequestCompletionCode | .doorbellCompletionCode | .hostControllerCompletionCode
  | .deviceNotificationCompletionCode | .mfindexWrapCompletionCode => w == 2 && decide (24 ≤ k)

/-- Bit `k` of word `w` lies at a place of the model's FIELDS: what the generic getter of that place reads (R56, R128). -/
def placeHasBit : Place → Fin 4 → Nat → Bool
  | .bits u hi lo, w, k => u == w && decide (lo ≤ k ∧ k ≤ hi)
  | .pointer _, w, _ => w == 0 || w == 1
  | .notificationData, w, k => (w == 0 && decide (8 ≤ k)) || w == 1

/-- Bit `k` of word `w` lies in the range. -/
def rangeHasBit (x : BitRange) (w : Fin 4) (k : Nat) : Bool := x.w == w && decide (x.lo ≤ k ∧ k ≤ x.hi)

/-- Bit `k` of word `w` lies in a reserved range of the variant. -/
def reservedHasBit (cfg : Config) (v : EventVariant) (w : Fin 4) (k : Nat) : Bool :=
  (reserved cfg v).any fun x => rangeHasBit x w k

/-- The record with bit `k` of word `w` set. -/
def withBitSet (r : Raw) (w : Fin 4) (k : Nat) : Raw := setWordAt r w (wordAt r w ||| BitVec.twoPow 32 k)

/-- The number of bits in the reserved ranges of a variant. -/
def reservedCount (cfg : Config) (v : EventVariant) : Nat :=
  ((reserved cfg v).map fun x => x.hi - x.lo + 1).sum

/-- A setter of variant `v`, or `SET.C`. -/
def settersOf (v : EventVariant) (calls : List SetterCall) : Prop :=
  ∀ call ∈ calls, SetterCall.appliesTo v.toType call = true

/-- The eight completion-code fields (43_completion_code.md R144). -/
def namesCompletionCode : Field → Bool
  | .transferEventCompletionCode | .commandCompletionCompletionCode | .portStatusChangeCompletionCode
  | .bandwidthRequestCompletionCode | .doorbellCompletionCode | .hostControllerCompletionCode
  | .deviceNotificationCompletionCode | .mfindexWrapCompletionCode => true
  | _ => false

/-- Row `GET.V.completion_code`, `CC.DECODE` of R160: Ok with the name when the byte is in CC_TABLE, else Err with it. -/
def byteOutcome (cfg : Config) (n : BitVec 8) (y : Response) : Prop :=
  (∀ c : CompletionCode, (c, n) ∈ cfg.ccTable → y = .ok (.code c)) ∧
  ((∀ c : CompletionCode, (c, n) ∉ cfg.ccTable) → y = .err (.byte n))

/-- The columns value, Ok and Err of the table of 60_exceptions.md R160, each answer with the condition the table gives it:
what an operation whose operand is admitted answers. -/
def outcomeInTable (cfg : Config) : Input → Response → Prop
  | .reset, _ => False
  | .onType (.get f) _ r, y =>
    if namesCompletionCode f then byteOutcome cfg (r.w2.extractLsb' 24 8) y else ∃ x : Value, y = .value x
  | .onType .tryV t r, y => ∃ v : EventVariant, v.toType = t ∧
      (valid cfg v r = true → y = .ok (.typed t r)) ∧ (valid cfg v r = false → y = .err (.raw r))
  | .onType _ _ _, y => ∃ x : Value, y = .value x
  | .onAllowed _ _ _, y => ∃ x : Value, y = .value x
  | .onRaw .typeOf w, y =>
    (∀ t : RecType, cfg.typeTable t = some (tagOf w) → y = .ok (.typeName t)) ∧
    ((∀ t : RecType, cfg.typeTable t ≠ some (tagOf w)) → y = .err (.tag (tagOf w)))
  | .onRaw .classify w, y =>
    (∀ v : EventVariant, valid cfg v w = true → y = .ok (.allowed v w)) ∧
    ((∀ v : EventVariant, valid cfg v w = false) → y = .err (.raw w))
  | .ccDecode n, y => byteOutcome cfg n y

/-- The input is the setter of `f`, the one kind of operation whose own check can raise a fault (R160). -/
def isSetterOf (f : Field) : Input → Prop
  | .onType (.set (.field g _)) _ _ => g = f
  | _ => False

end Sys2Proof.Statements

open Sys2Proof.Statements

/-! Encoding. -/

/-- Decoding the encoding of a well-formed instruction gives it back, for every admissible configuration, as words and
as bytes with anything after them. -/
def Obligations.DecodeEncodeRoundTrip : Prop :=
  ∀ (cfg : Config) (i : Instr) (rest : List Byte), cfg.Admissible → i.wellFormed cfg = true →
    decode cfg (encode i) = .ok i ∧ decodeBytes cfg (encodeBytes i ++ rest) = .ok (i, rest)

/-- What the decoder accepts is well-formed, has the type its tag names, and encodes to the words decoded: no two words
decode to one instruction and no bit is dropped. -/
def Obligations.EncodeOfDecodedIsIdentity : Prop :=
  ∀ (cfg : Config) (w : Raw) (i : Instr), decode cfg w = .ok i →
    encode i = w ∧ i.wellFormed cfg = true ∧ cfg.typeTable i.type = some (tagOf w)

/-- Words written out from the format rules decode to the records they stand for, under the default tables (logs 6, 8
and 9 name what in them is PRESUMED or DEDUCED). -/
def Obligations.DecodesWordsOfTheFormats : Prop :=
  decode Config.default ⟨0x00001000, 0, 0x01000040, 0x01038000⟩ =
    .ok (.transferEvent { trbPointer := 0x1000, completionCode := 1, trbTransferLength := 64, slotId := 1,
                          rsvd23_21 := 0, endpointId := 3, tag := 32, rsvd9_3 := 0, eventData := 0, rsvd1 := 0, c := 0 }) ∧
  decode Config.default ⟨0x23456780, 0x00000001, 0x01ABCDEF, 0x05028401⟩ =
    .ok (.commandCompletion { commandTrbPointer := 0x123456780, completionCode := 1,
                              commandCompletionParameter := 0xABCDEF, slotId := 5, vfId := 2, tag := 33,
                              rsvd9_1 := 0, c := 1 }) ∧
  decode Config.default ⟨0xEEFF1110, 0xAABBCCDD, 0x01000000, 0x09009800⟩ =
    .ok (.deviceNotification { notificationData := 0xAABBCCDDEEFF11, notificationType := 1, rsvd3_0 := 0,
                               completionCode := 1, rsvdW2 := 0, slotId := 9, rsvd23_16 := 0, tag := 38,
                               rsvd9_1 := 0, c := 0 }) ∧
  decode Config.default ⟨0xFFFF0010, 0x0000000F, 0, 0x00001800⟩ =
    .ok (.link { ringSegmentPointer := 0x0000000FFFFF0010, unspecW2 := 0, unspec31_16 := 0, tag := 6,
                 unspec9_1 := 0, c := 0 }) ∧
  decode Config.default ⟨0, 0, 0, 0x0000A000⟩ = .error (.unknownTag 40) ∧
  decode Config.default ⟨0x00001000, 0, 0x01000040, 0x01038002⟩ = .error (.reservedBits .transferEvent)

/-- R21, R22, which the spec derives from R3 and the source's layout sentence: the byte image, where the tag, the cycle
bit and the completion code lie in it, and the two directions. -/
def Obligations.ByteImageRoundTrip : Prop :=
  (∀ r : Raw, (toBytes r).length = 16 ∧
    (∀ (i : Fin 4) (j : Fin 4), (toBytes r)[4 * i.val + j.val]? = some ((wordAt r i).extractLsb' (8 * j.val) 8)) ∧
    ∀ b11 b12 b13 : Byte, (toBytes r)[11]? = some b11 → (toBytes r)[12]? = some b12 → (toBytes r)[13]? = some b13 →
      b11 = r.w2.extractLsb' 24 8 ∧ b12.extractLsb' 0 1 = getCycle r ∧ b13.extractLsb' 2 6 = tagOf r) ∧
  (∀ (r : Raw) (rest : List Byte), fromBytes (toBytes r ++ rest) = some (r, rest)) ∧
  (∀ b : List Byte, b.length = 16 → ∃ r : Raw, fromBytes b = some (r, []) ∧ toBytes r = b ∧
    ∀ i : Fin 4, wordAt r i =
      b.getD (4 * i.val + 3) 0 ++ b.getD (4 * i.val + 2) 0 ++ b.getD (4 * i.val + 1) 0 ++ b.getD (4 * i.val) 0)

/-- R45: the tags that name no type under the default table, and what the operations answer on such a record. -/
def Obligations.UnknownTagIsRecoverable : Prop :=
  (∀ t : BitVec 6, typeOfTag Config.default t = none ↔
    (t = 0 ∨ (26 ≤ t.toNat ∧ t.toNat ≤ 31) ∨ 40 ≤ t.toNat)) ∧
  (∀ (cfg : Config) (w : Raw) (v : EventVariant), typeOfTag cfg (tagOf w) = none → valid cfg v w = false) ∧
  (∀ (s : State) (w : Raw), s.fatal = false → typeOfTag Config.default (tagOf w) = none →
    step (s.present (.onRaw .classify w)) = .next (answered s (.err (.raw w))) ∧
    step (s.present (.onRaw .typeOf w)) = .next (answered s (.err (.tag (tagOf w))))) ∧
  tagOf ⟨0, 0, 0, 0⟩ = 0

/-- R46: a command or transfer type, or an event type with a bit of its RESMASK set, does not classify; the record comes
back unchanged, and TYPE_OF still tells the type. -/
def Obligations.NonEventOrDirtyRecordIsHandedBack : Prop :=
  ∀ (s : State) (w : Raw) (t : RecType), s.fatal = false → Config.default.typeTable t = some (tagOf w) →
    step (s.present (.onRaw .typeOf w)) = .next (answered s (.ok (.typeName t))) ∧
    (t.event? = none → step (s.present (.onRaw .classify w)) = .next (answered s (.err (.raw w)))) ∧
    (∀ (v : EventVariant) (j : Fin 4), t = v.toType →
      wordAt w j &&& wordAt (resMask Config.default v) j ≠ 0 →
      step (s.present (.onRaw .classify w)) = .next (answered s (.err (.raw w))))

/-- R34, the spec's own inference (log 9), of the model's FIELDS and RESERVED: within one event variant no two of the cycle
bit, the tag, the named fields and the reserved ranges share a bit, but for the low four bits of the CommandCompletion
pointer, which R36 says coincide with the reserved range. And FIELDS holds for every field exactly the bits that
42_event_fields.md section 9 prints. -/
def Obligations.FieldsDoNotOverlap : Prop :=
  (∀ (cfg : Config) (v : EventVariant) (w : Fin 4) (k : Nat), k < 32 →
    (∀ f : Field, f.owner = v.toType → placeHasBit (fieldPlace f) w k = true →
      ¬ (w = 3 ∧ (k = 0 ∨ (10 ≤ k ∧ k ≤ 15))) ∧
      (∀ g : Field, g.owner = v.toType → g ≠ f → placeHasBit (fieldPlace g) w k = false) ∧
      (reservedHasBit cfg v w k = true → f = .commandCompletionCommandTrbPointer ∧ w = 0 ∧ k ≤ 3)) ∧
    (reservedHasBit cfg v w k = true → ¬ (w = 3 ∧ (k = 0 ∨ (10 ≤ k ∧ k ≤ 15))))) ∧
  (∀ (cfg : Config) (v : EventVariant), (reserved cfg v).Pairwise fun x y =>
    ∀ (w : Fin 4) (k : Nat), ¬ (rangeHasBit x w k = true ∧ rangeHasBit y w k = true)) ∧
  (∀ (f : Field) (w : Fin 4) (k : Nat), k < 32 → placeHasBit (fieldPlace f) w k = fieldHasBit f w k)

/-! Validation and classification. -/

/-- The validator over RESERVED accepts exactly the records whose decoded view is well-formed: the table and the format
partition agree, for every configuration (well-formedness is the model's, 30_encoding.md section 4). -/
def Obligations.ValidIffViewWellFormed : Prop :=
  ∀ (cfg : Config) (v : EventVariant) (r : Raw), valid cfg v r = (Instr.view v.toType r).wellFormed cfg

/-- R70: the predicate by its table, by the printed masks, and the shape of every per-variant validator. -/
def Obligations.ValidatorByTableAndByMasks : Prop :=
  ∀ (cfg : Config) (v : EventVariant) (r : Raw),
    (valid cfg v r = true ↔
      (cfg.typeTable v.toType = some (r.w3.extractLsb' 10 6) ∧
       ∀ x ∈ reserved cfg v, (wordAt r x.w).extractLsb' x.lo (x.hi - x.lo + 1) = 0)) ∧
    (∀ tag : BitVec 6, cfg.typeTable v.toType = some tag → (valid cfg v r = true ↔
      (r.w0 &&& (resMask cfg v).w0 = 0 ∧ r.w1 &&& (resMask cfg v).w1 = 0 ∧ r.w2 &&& (resMask cfg v).w2 = 0 ∧
       r.w3 &&& ((resMask cfg v).w3 ||| 0x0000FC00) = tag.setWidth 32 <<< 10))) ∧
    (valid cfg v r = true → tryV cfg v r = .ok r) ∧ (valid cfg v r = false → tryV cfg v r = .error r)

/-- R71 to R74. -/
def Obligations.TryFirstFourVariants : Prop :=
  (∀ r, triesBy (.transferEvent r) fun w => w.w3.extractLsb' 10 6 = 32 ∧ w.w3 &&& 0x00E003FA = 0) ∧
  (∀ r, triesBy (.commandCompletion r) fun w =>
    w.w3.extractLsb' 10 6 = 33 ∧ w.w0 &&& 0x0000000F = 0 ∧ w.w3 &&& 0x000003FE = 0) ∧
  (∀ r, triesBy (.portStatusChange r) fun w =>
    w.w3.extractLsb' 10 6 = 34 ∧ w.w0 &&& 0x00FFFFFF = 0 ∧ w.w1 = 0 ∧ w.w2 &&& 0x00FFFFFF = 0 ∧
      w.w3 &&& 0xFFFF03FE = 0) ∧
  (∀ r, triesBy (.bandwidthRequest r) fun w =>
    w.w3.extractLsb' 10 6 = 35 ∧ w.w0 = 0 ∧ w.w1 = 0 ∧ w.w2 &&& 0x00FFFFFF = 0 ∧ w.w3 &&& 0x00FF03FE = 0)

/-- R75 to R78, resting on choices of the spec and of the model: DeviceNotification's constants are the resolved row and
not the document's (90_conflicts.md C3, C4; decision D10; logs 8 and 9), and MfindexWrap's are those of MFINDEX_RESERVED =
LITERAL (decision D11; log 10), with those of STRICT stated of the instance so configured. -/
def Obligations.TryLastFourVariants : Prop :=
  (∀ r, triesBy (.doorbell r) fun w =>
    w.w3.extractLsb' 10 6 = 36 ∧ w.w0 &&& 0xFFFFFFE0 = 0 ∧ w.w1 = 0 ∧ w.w2 &&& 0x00FFFFFF = 0 ∧
      w.w3 &&& 0x000003FE = 0) ∧
  (∀ r, triesBy (.hostController r) fun w =>
    w.w3.extractLsb' 10 6 = 37 ∧ w.w0 = 0 ∧ w.w1 = 0 ∧ w.w2 &&& 0x00FFFFFF = 0 ∧ w.w3 &&& 0xFFFF03FE = 0) ∧
  (∀ r, triesBy (.deviceNotification r) fun w =>
    w.w3.extractLsb' 10 6 = 38 ∧ w.w0 &&& 0x0000000F = 0 ∧ w.w2 &&& 0x00FFFFFF = 0 ∧ w.w3 &&& 0x00FF03FE = 0) ∧
  (∀ r, triesBy (.mfindexWrap r) fun w =>
    w.w3.extractLsb' 10 6 = 39 ∧ w.w0 &&& 0x0000000F = 0 ∧ w.w2 &&& 0x00FFFFFF = 0 ∧ w.w3 &&& 0x00FF03FE = 0) ∧
  (∀ (cfg : Config) (r : MfindexWrapRec), cfg.mfindexReserved = .strict → cfg.typeTable .mfindexWrap = some 39 →
    let w := encode (.mfindexWrap r)
    let p := w.w3.extractLsb' 10 6 = 39 ∧ w.w0 = 0 ∧ w.w1 = 0 ∧ w.w2 &&& 0x00FFFFFF = 0 ∧ w.w3 &&& 0xFFFF03FE = 0
    (p → typeOpAnswersWith cfg (.mfindexWrap r) .tryV (.ok (.typed .mfindexWrap w))) ∧
    (¬ p → typeOpAnswersWith cfg (.mfindexWrap r) .tryV (.err (.raw w))))

/-- R79: CLASSIFY answers Ok with the variant that accepts the record and the same 128 bits, else Err with the record
and nothing else. -/
def Obligations.ClassifyAnswers : Prop :=
  ∀ (s : State) (w : Raw), s.fatal = false →
    (∀ v : EventVariant, valid Config.default v w = true →
      step (s.present (.onRaw .classify w)) = .next (answered s (.ok (.allowed v w)))) ∧
    ((∀ v : EventVariant, valid Config.default v w = false) →
      step (s.present (.onRaw .classify w)) = .next (answered s (.err (.raw w))))

/-- R79 corner case (a), for the model's decoder (log 16): decoding the tag, picking the one candidate and testing its
reserved ranges is the same as trying the eight validators in order; the decoder does the former. -/
def Obligations.ClassifyIsDecodeToAnEvent : Prop :=
  ∀ (cfg : Config) (w : Raw), cfg.Admissible →
    (∀ v : EventVariant, classify cfg w = .ok (v, w) ↔ decode cfg w = .ok (Instr.view v.toType w)) ∧
    (classify cfg w = .error w ↔ ∀ i : Instr, decode cfg w = .ok i → i.type.event? = none)

/-- R80, which the spec derives from R70: no record is valid for two variants, and the order of trial cannot be
observed. -/
def Obligations.EventTagsAreDisjoint : Prop :=
  ∀ cfg : Config, cfg.Admissible →
    (∀ (a b : EventVariant) (r : Raw), a ≠ b → ¬ (valid cfg a r = true ∧ valid cfg b r = true)) ∧
    (∀ (a b : EventVariant) (tag : BitVec 6), cfg.typeTable a.toType = some tag → a ≠ b →
      tryV cfg b (newRecord tag) = .error (newRecord tag)) ∧
    (∀ (a : EventVariant) (tag : BitVec 6), cfg.typeTable a.toType = some tag →
      tryV cfg a (newRecord tag) = .ok (newRecord tag)) ∧
    (∀ (order : List EventVariant) (w : Raw), (∀ v : EventVariant, v ∈ order) →
      firstMatch cfg w order = classify cfg w)

/-- R85, which the spec derives from R70: the cycle bit touches neither validity, nor classification, nor any getter. -/
def Obligations.CycleBitIndependence : Prop :=
  ∀ (cfg : Config) (r : Raw) (b : BitVec 1),
    (∀ v : EventVariant, valid cfg v (setCycle r b) = valid cfg v r) ∧
    (∀ v : EventVariant, classify cfg r = .ok (v, r) ↔ classify cfg (setCycle r b) = .ok (v, setCycle r b)) ∧
    (classify cfg r = .error r ↔ classify cfg (setCycle r b) = .error (setCycle r b)) ∧
    (∀ f : Field, fieldResponse cfg f (setCycle r b) = fieldResponse cfg f r)

/-- R86, which the spec derives from R80, R59 and R85: a new record after any chain of admitted setters classifies as
its own variant, bit for bit. And its step: a record valid for a variant stays valid under every admitted setter of the
variant and under SET.C. -/
def Obligations.ConstructedRecordsClassify : Prop :=
  (∀ (cfg : Config) (v : EventVariant) (tag : BitVec 6) (calls : List SetterCall) (r : Raw), cfg.Admissible →
    cfg.typeTable v.toType = some tag → settersOf v calls → chain calls (newRecord tag) = .ok r →
    classify cfg r = .ok (v, r)) ∧
  (∀ (cfg : Config) (v : EventVariant) (call : SetterCall) (r r' : Raw), SetterCall.appliesTo v.toType call = true →
    valid cfg v r = true → SetterCall.apply call r = .ok r' → valid cfg v r' = true)

/-- R87, which the spec derives from R70 and R80: any reserved bit set on a valid instance makes TRY and CLASSIFY fail
with the record unchanged; and how many reserved bits each variant has. -/
def Obligations.ReservedBitRejection : Prop :=
  (∀ (cfg : Config) (v : EventVariant) (r : Raw) (w : Fin 4) (k : Nat), cfg.Admissible →
    valid cfg v r = true → reservedHasBit cfg v w k = true →
    tryV cfg v (withBitSet r w k) = .error (withBitSet r w k) ∧
    classify cfg (withBitSet r w k) = .error (withBitSet r w k)) ∧
  (∀ cfg : Config,
    reservedCount cfg .transferEvent = 11 ∧ reservedCount cfg .commandCompletion = 13 ∧
    reservedCount cfg .portStatusChange = 105 ∧ reservedCount cfg .bandwidthRequest = 105 ∧
    reservedCount cfg .doorbell = 92 ∧ reservedCount cfg .hostController = 113 ∧
    reservedCount cfg .deviceNotification = 45 ∧
    (cfg.mfindexReserved = .literal → reservedCount cfg .mfindexWrap = 45) ∧
    (cfg.mfindexReserved = .strict → reservedCount cfg .mfindexWrap = 113))

/-- R88, R156, decision D23; that it is so in every state is the model's choice (log 12): a validator, and the wrapping
into a union, of a type that is no event variant are refused as not specified, in every state, and neither answered nor
faulted. -/
def Obligations.NonEventValidatorNotSpecified : Prop :=
  ∀ (i : Instr) (s : State) (t : RecType) (w : Raw), i.type.event? = none →
    exec i (s.present (.onType .tryV t w)) = .refused (.notSpecified (.tryV i.type)) ∧
    exec i (s.present (.onType .wrap t w)) = .refused (.notSpecified (.wrap i.type))

/-- R136: a getter or setter of one type on a record typed as another is refused; that it is so in every state is the
model's choice (log 12). -/
def Obligations.FieldOfAnotherTypeRefused : Prop :=
  ∀ (i : Instr) (s : State) (t : RecType) (w : Raw) (f : Field) (v : BitVec f.operandWidth), f.owner ≠ i.type →
    exec i (s.present (.onType (.get f) t w)) = .refused (.illTyped (.get f) i.type) ∧
    exec i (s.present (.onType (.set (.field f v)) t w)) = .refused (.illTyped (.set f) i.type)

/-! The record framework. -/

/-- R50: NEW.T for every type: all zero but the tag; the cycle bit and every field read zero; a new event record is a
valid instance of its own variant and of no other. -/
def Obligations.NewStampsTheTag : Prop :=
  (∀ i : Instr, ∃ tag : BitVec 6, Config.default.typeTable i.type = some tag ∧
    typeOpAnswers i .new (.value (.typed i.type ⟨0, 0, 0, tag.setWidth 32 <<< 10⟩))) ∧
  (∀ tag : BitVec 6, getCycle (newRecord tag) = 0 ∧ tagOf (newRecord tag) = tag ∧
    ∀ f : Field, readField f (newRecord tag) = 0) ∧
  (∀ (tag : BitVec 6) (f : Field), fieldKind f = .code →
    fieldResponse Config.default f (newRecord tag) = ccResponse Config.default 0) ∧
  (∀ (u v : EventVariant) (tag : BitVec 6), Config.default.typeTable v.toType = some tag →
    (valid Config.default u (newRecord tag) = true ↔ u = v))

/-- R51, and R52 in the operand form of decision D14: the cycle bit of every type, and its setter, which changes no
other bit. -/
def Obligations.CycleBitAccess : Prop :=
  ∀ (i : Instr) (b : BitVec 1),
    typeOpAnswers i .getC (.value (.bit ((encode i).w3.extractLsb' 0 1))) ∧
    typeOpAnswers i (.set (.cycle b))
      (.value (.typed i.type { encode i with w3 := (encode i).w3.extractLsb' 1 31 ++ b }))

/-- R53, and R54 kept apart from validation by decision D12: the raw conversions of every type change no bit and check
nothing. -/
def Obligations.RawConversionIsReinterpretation : Prop :=
  (∀ i : Instr, typeOpAnswers i .intoRaw (.value (.raw (encode i))) ∧
    typeOpAnswers i .fromRaw (.value (.typed i.type (encode i)))) ∧
  (∀ (t : RecType) (w : Raw), encode (Instr.view t w) = w) ∧ (∀ i : Instr, Instr.view i.type (encode i) = i)

/-- R55, an operation by decision D19: TYPE_OF of any record whatever: the type whose tag it holds, else the six bits.
-/
def Obligations.TypeOfAnswers : Prop :=
  ∀ (s : State) (w : Raw), s.fatal = false →
    (∀ t : RecType, Config.default.typeTable t = some (w.w3.extractLsb' 10 6) →
      step (s.present (.onRaw .typeOf w)) = .next (answered s (.ok (.typeName t)))) ∧
    ((∀ t : RecType, Config.default.typeTable t ≠ some (w.w3.extractLsb' 10 6)) →
      step (s.present (.onRaw .typeOf w)) = .next (answered s (.err (.tag (w.w3.extractLsb' 10 6)))))

/-- R56: the generic getters are the slice and the two words put together, on every record. -/
def Obligations.GenericFieldRead : Prop :=
  (∀ (r : Raw) (w : Fin 4) (hi lo : Nat), lo ≤ hi → hi < 32 →
    (getField r w hi lo).toNat = (wordAt r w).toNat / 2 ^ lo % 2 ^ (hi - lo + 1)) ∧
  (∀ r : Raw, getPtr r = (r.w1.setWidth 64 <<< 32) ||| r.w0.setWidth 64 ∧
    (getPtr r).toNat = r.w1.toNat * 2 ^ 32 + r.w0.toNat)

/-- R57, R155, which are decisions D6 and D21 of the spec: a setter checks, then replaces exactly its bits; a pointer
setter checks width before alignment. For operands of any width, which is the model's choice (log 13). -/
def Obligations.GenericFieldWrite : Prop :=
  (∀ (r : Raw) (w : Fin 4) (hi lo v : Nat), lo ≤ hi → hi < 32 →
    (2 ^ (hi - lo + 1) ≤ v → setField r w hi lo v = .error .widthViolation) ∧
    (v < 2 ^ (hi - lo + 1) → ∃ r' : Raw, setField r w hi lo v = .ok r' ∧
      (∀ k, lo ≤ k → k ≤ hi → (wordAt r' w).getLsbD k = v.testBit (k - lo)) ∧
      (∀ k, k < lo ∨ hi < k → (wordAt r' w).getLsbD k = (wordAt r w).getLsbD k) ∧
      ∀ j : Fin 4, j ≠ w → wordAt r' j = wordAt r j)) ∧
  (∀ (r : Raw) (v a : Nat),
    (2 ^ 64 ≤ v → setPtr r v a = .error .widthViolation) ∧
    (v < 2 ^ 64 → v % a ≠ 0 → setPtr r v a = .error .alignmentViolation) ∧
    (v < 2 ^ 64 → v % a = 0 →
      setPtr r v a = .ok ⟨BitVec.ofNat 32 v, (BitVec.ofNat 64 v).extractLsb' 32 32, r.w2, r.w3⟩))

/-- R58: every setter answers with the whole record of the same type, and a chain is composition that a fatal setter
ends. -/
def Obligations.SettersChain : Prop :=
  (∀ (i : Instr) (call : SetterCall) (r : Raw), SetterCall.appliesTo i.type call = true →
    SetterCall.apply call (encode i) = .ok r → typeOpAnswers i (.set call) (.value (.typed i.type r))) ∧
  (∀ (a b : List SetterCall) (r r' : Raw), chain a r = .ok r' → chain (a ++ b) r = chain b r') ∧
  (∀ (a b : List SetterCall) (r : Raw) (c : FatalCause), chain a r = .error c → chain (a ++ b) r = .error c)

/-- R59, which the spec derives from R57 and R34: a setter changes no bit outside its field, so not the tag nor the
cycle bit, and keeps validity, with R59's one exception: on a record whose `W[0][3:0]` is dirty the CommandCompletion
pointer setter cleans those four bits, and its result is valid exactly when the record so cleaned is. -/
def Obligations.SetterFrameLaw : Prop :=
  ∀ (cfg : Config) (f : Field) (r r' : Raw) (v : Nat), writeField f r v = .ok r' →
    (∀ (w : Fin 4) (k : Nat), fieldHasBit f w k = false → (wordAt r' w).getLsbD k = (wordAt r w).getLsbD k) ∧
    tagOf r' = tagOf r ∧ getCycle r' = getCycle r ∧
    (∀ u : EventVariant, f.owner = u.toType →
      (f ≠ .commandCompletionCommandTrbPointer ∨ r.w0.extractLsb' 0 4 = 0 → valid cfg u r' = valid cfg u r) ∧
      (f = .commandCompletionCommandTrbPointer → r'.w0.extractLsb' 0 4 = 0 ∧
        valid cfg u r' = valid cfg u { r with w0 := r.w0 &&& 0xFFFFFFF0 }))

/-- R62, which the spec derives from R56, R57 and R59: the read-after-write laws (a) to (e), over the operands `v` each
setter admits. Law (e) has R59's exception, and the Link pointer, aligned like the CommandCompletion one, has it too. -/
def Obligations.ReadAfterWrite : Prop :=
  (∀ (cfg : Config) (f : Field) (r r1 : Raw) (v : Nat), writeField f r v = .ok r1 →
    readField f r1 = BitVec.ofNat 64 v ∧
    (fieldKind f = .code → fieldResponse cfg f r1 = ccResponse cfg (BitVec.ofNat 8 v)) ∧
    getCycle r1 = getCycle r ∧
    ∀ v2 : Nat, writeField f r1 v2 = writeField f r v2) ∧
  (∀ (f g : Field) (r r1 : Raw) (v : Nat), g.owner = f.owner → g ≠ f → writeField f r v = .ok r1 →
    readField g r1 = readField g r ∧
    ∀ (u : Nat) (r2 : Raw), writeField g r u = .ok r2 →
      ∃ r3 : Raw, writeField g r1 u = .ok r3 ∧ writeField f r2 v = .ok r3) ∧
  (∀ (f : Field) (r : Raw),
    ((f ≠ .commandCompletionCommandTrbPointer ∧ f ≠ .linkRingSegmentPointer) ∨ r.w0.extractLsb' 0 4 = 0 →
      writeField f r (readField f r).toNat = .ok r) ∧
    ((f = .commandCompletionCommandTrbPointer ∨ f = .linkRingSegmentPointer) → r.w0.extractLsb' 0 4 ≠ 0 →
      writeField f r (readField f r).toNat = .error .alignmentViolation))

/-- R61, R47, decisions D25 and D16, for every admissible configuration: valid records of one event variant with the same
cycle bit, of which every getter returns the same, are equal, but for Doorbell and, under LITERAL, MfindexWrap, whose
unnamed bits change neither validity nor what any getter returns. -/
def Obligations.ObservationalEquality : Prop :=
  (∀ (cfg : Config) (v : EventVariant) (r r' : Raw), cfg.Admissible →
    v ≠ .doorbell → (v ≠ .mfindexWrap ∨ cfg.mfindexReserved = .strict) →
    valid cfg v r = true → valid cfg v r' = true → getCycle r = getCycle r' →
    (∀ f : Field, f.owner = v.toType → fieldResponse cfg f r = fieldResponse cfg f r') → r = r') ∧
  (∀ (cfg : Config) (r : Raw) (x : BitVec 16),
    let r' : Raw := { r with w3 := x ++ r.w3.extractLsb' 0 16 }
    valid cfg .doorbell r' = valid cfg .doorbell r ∧ getCycle r' = getCycle r ∧
    ∀ f : Field, f.owner = .doorbell → fieldResponse cfg f r' = fieldResponse cfg f r) ∧
  (∀ (cfg : Config) (r : Raw) (x : BitVec 28) (y : Word) (z : BitVec 8), cfg.mfindexReserved = .literal →
    let r' : Raw := ⟨x ++ r.w0.extractLsb' 0 4, y, r.w2, z ++ r.w3.extractLsb' 0 24⟩
    valid cfg .mfindexWrap r' = valid cfg .mfindexWrap r ∧ getCycle r' = getCycle r ∧
    ∀ f : Field, f.owner = .mfindexWrap → fieldResponse cfg f r' = fieldResponse cfg f r)

/-! The field getters, by the word slices of 42_event_fields.md. -/

/-- R90, R102, R128: the fields that span words, whose positions the source states. -/
def Obligations.PointerAndDataGetters : Prop :=
  (∀ r : TransferEventRec, getsNumber (.transferEvent r) .transferEventTrbPointer
    (fun w => (w.w1.setWidth 64 <<< 32) ||| w.w0.setWidth 64)) ∧
  (∀ r : CommandCompletionRec, getsNumber (.commandCompletion r) .commandCompletionCommandTrbPointer
    (fun w => (w.w1.setWidth 64 <<< 32) ||| w.w0.setWidth 64)) ∧
  (∀ r : DeviceNotificationRec,
    getsNumber (.deviceNotification r) .deviceNotificationNotificationData
      (fun w => ((((w.w1.setWidth 64 <<< 32) ||| w.w0.setWidth 64) >>> 8).extractLsb' 0 56).setWidth 64) ∧
    getsNumber (.deviceNotification r) .deviceNotificationNotificationData
      (fun w => (w.w1 ++ w.w0.extractLsb' 8 24).setWidth 64))

/-- R92, R94, R96, R98. The positions are marked X, the spec's own derivation (30_encoding.md R34, R35; log 9). -/
def Obligations.TransferEventGetters : Prop :=
  ∀ r : TransferEventRec,
    getsNumber (.transferEvent r) .transferEventTrbTransferLength (fun w => (w.w2.extractLsb' 0 24).setWidth 64) ∧
    typeOpAnswers (.transferEvent r) (.get .transferEventEventData)
      (.value (.bit ((encode (.transferEvent r)).w3.extractLsb' 2 1))) ∧
    getsNumber (.transferEvent r) .transferEventEndpointId (fun w => (w.w3.extractLsb' 16 5).setWidth 64) ∧
    getsNumber (.transferEvent r) .transferEventSlotId (fun w => (w.w3.extractLsb' 24 8).setWidth 64)

/-- R104, R106, R108. The positions are marked X (log 9) and, for `vf_id` and `slot_id`, K (log 8). -/
def Obligations.CommandCompletionGetters : Prop :=
  ∀ r : CommandCompletionRec,
    getsNumber (.commandCompletion r) .commandCompletionCommandCompletionParameter
      (fun w => (w.w2.extractLsb' 0 24).setWidth 64) ∧
    getsNumber (.commandCompletion r) .commandCompletionVfId (fun w => (w.w3.extractLsb' 16 8).setWidth 64) ∧
    getsNumber (.commandCompletion r) .commandCompletionSlotId (fun w => (w.w3.extractLsb' 24 8).setWidth 64)

/-- R112, R116, R120. The positions are marked X (log 9) and, for `db_reason`, K (log 8). -/
def Obligations.PortBandwidthDoorbellGetters : Prop :=
  (∀ r : PortStatusChangeRec,
    getsNumber (.portStatusChange r) .portStatusChangePortId (fun w => (w.w0.extractLsb' 24 8).setWidth 64)) ∧
  (∀ r : BandwidthRequestRec,
    getsNumber (.bandwidthRequest r) .bandwidthRequestSlotId (fun w => (w.w3.extractLsb' 24 8).setWidth 64)) ∧
  (∀ r : DoorbellRec,
    getsNumber (.doorbell r) .doorbellDbReason (fun w => (w.w0.extractLsb' 0 5).setWidth 64))

/-- R126, R130. The positions are marked Q, from the resolved row (90_conflicts.md C3, C4; log 9), and K (log 8). -/
def Obligations.DeviceNotificationGetters : Prop :=
  ∀ r : DeviceNotificationRec,
    getsNumber (.deviceNotification r) .deviceNotificationNotificationType
      (fun w => (w.w0.extractLsb' 4 4).setWidth 64) ∧
    getsNumber (.deviceNotification r) .deviceNotificationSlotId (fun w => (w.w3.extractLsb' 24 8).setWidth 64)

/-- The getters read the fields the decoder extracts: FIELDS and the format partition agree. -/
def Obligations.GettersReadDecodedFields : Prop :=
  (∀ r : TransferEventRec,
    readField .transferEventTrbPointer r.toRaw = r.trbPointer ∧
    readField .transferEventTrbTransferLength r.toRaw = r.trbTransferLength.setWidth 64 ∧
    readField .transferEventEventData r.toRaw = r.eventData.setWidth 64 ∧
    readField .transferEventEndpointId r.toRaw = r.endpointId.setWidth 64 ∧
    readField .transferEventSlotId r.toRaw = r.slotId.setWidth 64 ∧
    readField .transferEventCompletionCode r.toRaw = r.completionCode.setWidth 64) ∧
  (∀ r : CommandCompletionRec,
    readField .commandCompletionCommandTrbPointer r.toRaw = r.commandTrbPointer ∧
    readField .commandCompletionCommandCompletionParameter r.toRaw = r.commandCompletionParameter.setWidth 64 ∧
    readField .commandCompletionVfId r.toRaw = r.vfId.setWidth 64 ∧
    readField .commandCompletionSlotId r.toRaw = r.slotId.setWidth 64 ∧
    readField .commandCompletionCompletionCode r.toRaw = r.completionCode.setWidth 64) ∧
  (∀ r : PortStatusChangeRec,
    readField .portStatusChangePortId r.toRaw = r.portId.setWidth 64 ∧
    readField .portStatusChangeCompletionCode r.toRaw = r.completionCode.setWidth 64) ∧
  (∀ r : BandwidthRequestRec,
    readField .bandwidthRequestSlotId r.toRaw = r.slotId.setWidth 64 ∧
    readField .bandwidthRequestCompletionCode r.toRaw = r.completionCode.setWidth 64) ∧
  (∀ r : DoorbellRec,
    readField .doorbellDbReason r.toRaw = r.dbReason.setWidth 64 ∧
    readField .doorbellCompletionCode r.toRaw = r.completionCode.setWidth 64) ∧
  (∀ r : HostControllerRec, readField .hostControllerCompletionCode r.toRaw = r.completionCode.setWidth 64) ∧
  (∀ r : DeviceNotificationRec,
    readField .deviceNotificationNotificationType r.toRaw = r.notificationType.setWidth 64 ∧
    readField .deviceNotificationNotificationData r.toRaw = r.notificationData.setWidth 64 ∧
    readField .deviceNotificationSlotId r.toRaw = r.slotId.setWidth 64 ∧
    readField .deviceNotificationCompletionCode r.toRaw = r.completionCode.setWidth 64) ∧
  (∀ r : MfindexWrapRec, readField .mfindexWrapCompletionCode r.toRaw = r.completionCode.setWidth 64) ∧
  (∀ r : LinkRec, readField .linkRingSegmentPointer r.toRaw = r.ringSegmentPointer)

/-! The field setters, by the decoded record: the one field named changes and no other bit (R57, R59). -/

/-- R101, R111, R115, R119, R123, R125, R133, R135, resting on decisions of the spec: that the setter exists is D13 (R145),
the 64-bit operand and its width check are D6 (log 13), and fault entry with the operation's name is D4 (log 11). -/
def Obligations.CompletionCodeSetters : Prop :=
  (∀ r : TransferEventRec, setsBits (.transferEvent r) .transferEventCompletionCode 8
    (fun v => .transferEvent { r with completionCode := v.setWidth 8 })) ∧
  (∀ r : CommandCompletionRec, setsBits (.commandCompletion r) .commandCompletionCompletionCode 8
    (fun v => .commandCompletion { r with completionCode := v.setWidth 8 })) ∧
  (∀ r : PortStatusChangeRec, setsBits (.portStatusChange r) .portStatusChangeCompletionCode 8
    (fun v => .portStatusChange { r with completionCode := v.setWidth 8 })) ∧
  (∀ r : BandwidthRequestRec, setsBits (.bandwidthRequest r) .bandwidthRequestCompletionCode 8
    (fun v => .bandwidthRequest { r with completionCode := v.setWidth 8 })) ∧
  (∀ r : DoorbellRec, setsBits (.doorbell r) .doorbellCompletionCode 8
    (fun v => .doorbell { r with completionCode := v.setWidth 8 })) ∧
  (∀ r : HostControllerRec, setsBits (.hostController r) .hostControllerCompletionCode 8
    (fun v => .hostController { r with completionCode := v.setWidth 8 })) ∧
  (∀ r : DeviceNotificationRec, setsBits (.deviceNotification r) .deviceNotificationCompletionCode 8
    (fun v => .deviceNotification { r with completionCode := v.setWidth 8 })) ∧
  (∀ r : MfindexWrapRec, setsBits (.mfindexWrap r) .mfindexWrapCompletionCode 8
    (fun v => .mfindexWrap { r with completionCode := v.setWidth 8 }))

/-- R91, R93, R95, R97, R99. That the pointer has no alignment is decision D15; the other positions are marked X (log
9). -/
def Obligations.TransferEventSetters : Prop :=
  ∀ r : TransferEventRec,
    setsAlways (.transferEvent r) .transferEventTrbPointer (fun v => .transferEvent { r with trbPointer := v }) ∧
    setsBits (.transferEvent r) .transferEventTrbTransferLength 24
      (fun v => .transferEvent { r with trbTransferLength := v.setWidth 24 }) ∧
    setsAlways (.transferEvent r) .transferEventEventData (fun b => .transferEvent { r with eventData := b }) ∧
    setsBits (.transferEvent r) .transferEventEndpointId 5
      (fun v => .transferEvent { r with endpointId := v.setWidth 5 }) ∧
    setsBits (.transferEvent r) .transferEventSlotId 8 (fun v => .transferEvent { r with slotId := v.setWidth 8 })

/-- R103, R105, R107, R109. That the pointer's alignment is 16 is the spec's derivation in R103; the other positions are
marked X (log 9) and K (log 8). -/
def Obligations.CommandCompletionSetters : Prop :=
  ∀ r : CommandCompletionRec,
    setsPointer16 (.commandCompletion r) .commandCompletionCommandTrbPointer
      (fun v => .commandCompletion { r with commandTrbPointer := v }) ∧
    setsBits (.commandCompletion r) .commandCompletionCommandCompletionParameter 24
      (fun v => .commandCompletion { r with commandCompletionParameter := v.setWidth 24 }) ∧
    setsBits (.commandCompletion r) .commandCompletionVfId 8
      (fun v => .commandCompletion { r with vfId := v.setWidth 8 }) ∧
    setsBits (.commandCompletion r) .commandCompletionSlotId 8
      (fun v => .commandCompletion { r with slotId := v.setWidth 8 })

/-- R113, R117, R121. The positions are marked X (log 9) and, for `db_reason`, K (log 8). -/
def Obligations.PortBandwidthDoorbellSetters : Prop :=
  (∀ r : PortStatusChangeRec, setsBits (.portStatusChange r) .portStatusChangePortId 8
    (fun v => .portStatusChange { r with portId := v.setWidth 8 })) ∧
  (∀ r : BandwidthRequestRec, setsBits (.bandwidthRequest r) .bandwidthRequestSlotId 8
    (fun v => .bandwidthRequest { r with slotId := v.setWidth 8 })) ∧
  (∀ r : DoorbellRec, setsBits (.doorbell r) .doorbellDbReason 5
    (fun v => .doorbell { r with dbReason := v.setWidth 5 }))

/-- R127, R129, R131. The data setter is the spec's derived inverse of R128; the other positions are marked Q (log 9)
and K (log 8). -/
def Obligations.DeviceNotificationSetters : Prop :=
  ∀ r : DeviceNotificationRec,
    setsBits (.deviceNotification r) .deviceNotificationNotificationType 4
      (fun v => .deviceNotification { r with notificationType := v.setWidth 4 }) ∧
    setsBits (.deviceNotification r) .deviceNotificationNotificationData 56
      (fun v => .deviceNotification { r with notificationData := v.setWidth 56 }) ∧
    setsBits (.deviceNotification r) .deviceNotificationSlotId 8
      (fun v => .deviceNotification { r with slotId := v.setWidth 8 })

/-- R151, R152: the Link pointer. That it lies in words 0 and 1 is decision D18 (log 8). -/
def Obligations.LinkPointer : Prop :=
  ∀ r : LinkRec,
    setsPointer16 (.link r) .linkRingSegmentPointer (fun v => .link { r with ringSegmentPointer := v }) ∧
    getsNumber (.link r) .linkRingSegmentPointer (fun w => (w.w1.setWidth 64 <<< 32) ||| w.w0.setWidth 64)

/-! The completion code. -/

/-- R141, R143, for every admissible table: the lookup, and the three boundary facts. -/
def Obligations.CompletionCodeLookup : Prop :=
  ∀ cfg : Config, cfg.Admissible →
    (∀ (n : BitVec 8) (c : CompletionCode), ccDecode cfg n = .ok c ↔ (c, n) ∈ cfg.ccTable) ∧
    (∀ n : BitVec 8, ccDecode cfg n = .error n ↔ ∀ c : CompletionCode, (c, n) ∉ cfg.ccTable) ∧
    ccDecode cfg 30 = .error 30 ∧ ccDecode cfg 1 = .ok .success ∧ ccDecode cfg 255 = .error 255

/-- R142, which the spec derives from R141: `cc_value` and the decoder are inverse, and from the result of a decode the
byte can always be recovered. -/
def Obligations.CompletionCodeByteIsRecoverable : Prop :=
  ∀ cfg : Config, cfg.Admissible →
    (∀ (c : CompletionCode) (n : BitVec 8), ccValue cfg c = some n ↔ ccDecode cfg n = .ok c) ∧
    (∀ m n : BitVec 8, ccDecode cfg m = ccDecode cfg n → m = n)

/-- CC.DECODE as a step, with the default table, which is PRESUMED (log 7): Ok with the name whose value is the byte,
else Err with the byte; the bytes with no name are 30 and 37 to 255. -/
def Obligations.CcDecodeStep : Prop :=
  ∀ (s : State) (n : BitVec 8), s.fatal = false →
    (∀ c : CompletionCode, (c, n) ∈ Config.default.ccTable →
      step (s.present (.ccDecode n)) = .next (answered s (.ok (.code c)))) ∧
    ((∀ c : CompletionCode, (c, n) ∉ Config.default.ccTable) →
      step (s.present (.ccDecode n)) = .next (answered s (.err (.byte n)))) ∧
    ((∀ c : CompletionCode, (c, n) ∉ Config.default.ccTable) ↔ n = 30 ∨ 37 ≤ n.toNat)

/-- R144 and its eight instances: the lookup of `W[2][31:24]`, whatever the other bits hold. -/
def Obligations.CompletionCodeGetters : Prop :=
  (∀ r, getsCode (.transferEvent r) .transferEventCompletionCode) ∧
  (∀ r, getsCode (.commandCompletion r) .commandCompletionCompletionCode) ∧
  (∀ r, getsCode (.portStatusChange r) .portStatusChangeCompletionCode) ∧
  (∀ r, getsCode (.bandwidthRequest r) .bandwidthRequestCompletionCode) ∧
  (∀ r, getsCode (.doorbell r) .doorbellCompletionCode) ∧
  (∀ r, getsCode (.hostController r) .hostControllerCompletionCode) ∧
  (∀ r, getsCode (.deviceNotification r) .deviceNotificationCompletionCode) ∧
  (∀ r, getsCode (.mfindexWrap r) .mfindexWrapCompletionCode)

/-! The union Allowed. -/

/-- R81, R82, R83: wrapping, the cycle bit through the union, and its raw words, for each of the eight variants. -/
def Obligations.AllowedUnion : Prop :=
  ∀ (i : Instr) (v : EventVariant) (b : BitVec 1), i.type = v.toType →
    typeOpAnswers i .wrap (.value (.allowed v (encode i))) ∧
    allowedOpAnswers i .getC (.value (.bit ((encode i).w3.extractLsb' 0 1))) ∧
    allowedOpAnswers i (.setC b)
      (.value (.allowed v { encode i with w3 := (encode i).w3.extractLsb' 1 31 ++ b })) ∧
    allowedOpAnswers i .intoRaw (.value (.raw (encode i)))

/-! The FATAL latch. -/

/-- R163, R164, R167, R169, with decisions D4 and D6: a setter whose printed contract is broken enters the fault with
the cause of its kind and changes nothing else; one whose contract holds answers and leaves the latch. -/
def Obligations.SetterFaultsExactlyOnBrokenContract : Prop :=
  ∀ (i : Instr) (s : State) (t : RecType) (w : Raw) (f : Field) (v : BitVec f.operandWidth),
    s.fatal = false → f.owner = i.type →
    (setterContract f v.toNat = true → ∃ r : Raw,
      exec i (s.present (.onType (.set (.field f v)) t w)) = .next (answered s (.value (.typed i.type r)))) ∧
    (setterContract f v.toNat = false → ∃ c : FatalCause, setterCause f = some c ∧
      exec i (s.present (.onType (.set (.field f v)) t w)) = .next (faulted s c (.set f)))

/-- R168, decision D4, for every configuration: while FATAL = 1 every operation of the block answers with the fault and
changes nothing. -/
def Obligations.GateWhileFatal : Prop :=
  ∀ (cfg : Config) (s : State) (x : Input), s.fatal = true → isOperation cfg x = true →
    stepWith cfg (s.present x) = .next (answered s .fault)

/-- R160 and R172, with fault entry and the gate, R167 and R168, which are decision D4 (log 11), and the width check,
decision D6 (log 13), for every admissible configuration. With FATAL = 0 an operation whose setter contract, if it has one,
holds answers as the table of R160 says and when it says, and changes nothing else; a field setter whose contract is broken
enters the fault with the cause of its kind. With FATAL = 1 every operation answers the fault and changes nothing. -/
def Obligations.FourOutcomes : Prop :=
  ∀ (cfg : Config) (s : State) (x : Input), cfg.Admissible → isOperation cfg x = true →
    (s.fatal = false → keepsContract x = true →
      ∃ y : Response, outcomeInTable cfg x y ∧ stepWith cfg (s.present x) = .next (answered s y)) ∧
    (s.fatal = false → keepsContract x = false →
      ∃ (f : Field) (c : FatalCause), isSetterOf f x ∧ setterCause f = some c ∧
        stepWith cfg (s.present x) = .next (faulted s c (.set f))) ∧
    (s.fatal = true → stepWith cfg (s.present x) = .next (answered s .fault))

/-- An input that is neither an operation nor reset, one that names a type TYPE_TABLE leaves out among them, is declined in
every state, whatever FATAL holds (the model's choice, logs 12 and 22); no other input is. For every configuration. -/
def Obligations.OnlyNonOperationsAreRefused : Prop :=
  ∀ (cfg : Config) (s : State) (x : Input),
    (∃ ρ : Refusal, stepWith cfg (s.present x) = .refused ρ) ↔ (isOperation cfg x = false ∧ x ≠ .reset)

/-- R168, decision D4: no operation clears FATAL, and the first cause is kept until reset. -/
def Obligations.OnlyResetClearsFatal : Prop :=
  ∀ s s' : State, s.fatal = true → step s = .next s' →
    (s'.fatal = true ∧ s'.fatalCause = s.fatalCause) ∨ s.inputs.head? = some .reset

/-- R180, R181, decision D5: reset clears the latch and touches nothing of the host's (that later inputs stay is the
model's choice, log 15); the state after reset. -/
def Obligations.ResetClearsTheLatch : Prop :=
  (∀ s : State, ∃ s' : State, step (s.present .reset) = .next s' ∧
    s'.fatal = false ∧ s'.fatalCause = none ∧ s'.inputs = s.inputs) ∧
  State.reset.fatal = false ∧ State.reset.fatalCause = none

/-- R15 with R163 and R164, decisions D1, D4 and D6: every step keeps the latch consistent: FATAL_CAUSE is None exactly
while FATAL = 0, and else names a setter with a cause that setter can raise. -/
def Obligations.StepKeepsLatchConsistent : Prop :=
  ∀ s s' : State, s.latchConsistent = true → step s = .next s' → s'.latchConsistent = true

/-- R180, decision D5: the latch is consistent after reset. -/
def Obligations.ResetLatchConsistent : Prop := State.reset.latchConsistent = true

/-- R18: the outcome of an operation is a function of its operands and of FATAL and of nothing else. -/
def Obligations.OutcomeDependsOnOperandsAndFatalOnly : Prop :=
  ∀ (s1 s2 t1 : State) (x : Input), s1.fatal = s2.fatal → step (s1.present x) = .next t1 →
    ∃ t2 : State, step (s2.present x) = .next t2 ∧ t2.response = t1.response ∧ t2.fatal = t1.fatal

/-- R183: two operations of which neither faults may be issued in either order with the same two outcomes and the same
latch. -/
def Obligations.OrderOfOperationsIsUnobservable : Prop :=
  ∀ (s : State) (x y : Input) (a b : Response),
    isOperation Config.default x = true → isOperation Config.default y = true →
    a ≠ .fault → b ≠ .fault →
    (step (s.present x) = .next (answered s a) ∧ step ((answered s a).present y) = .next (answered s b)) →
    (step (s.present y) = .next (answered s b) ∧ step ((answered s b).present x) = .next (answered s a))

/-- R184 item 5, for runs of the model's inputs (log 1): a run of any length whose inputs keep the setter contracts
never enters the fault. -/
def Obligations.ContractKeepingRunsNeverFault : Prop :=
  ∀ (k : Nat) (s s' : State), s.fatal = false → s.response ≠ some .fault → (∀ x ∈ s.inputs, keepsContract x = true) →
    Host.Core.run Sys2Proof.core k s = .next s' → s'.fatal = false ∧ s'.response ≠ some .fault

/-! The step. -/

/-- The model's form of R12 (logs 2 and 16). A step runs the decoded instruction: a raw record that decodes, and a typed
record viewed as its type. A raw record that does not decode is answered by the same operation on its words. -/
def Obligations.StepRunsTheDecodedRecord : Prop :=
  (∀ (s : State) (op : RawOp) (w : Raw) (i : Instr), decode Config.default w = .ok i →
    step (s.present (.onRaw op w)) = exec i (s.present (.onRaw op w))) ∧
  (∀ (s : State) (op : TypeOp) (t : RecType) (w : Raw),
    step (s.present (.onType op t w)) = exec (Instr.view t w) (s.present (.onType op t w))) ∧
  (∀ (s : State) (op : AllowedOp) (v : EventVariant) (w : Raw),
    step (s.present (.onAllowed op v w)) = exec (Instr.view v.toType w) (s.present (.onAllowed op v w))) ∧
  (∀ (s : State) (op : RawOp) (w : Raw) (e : DecodeError), decode Config.default w = .error e →
    step (s.present (.onRaw op w)) = performRaw Config.default op w (s.present (.onRaw op w)))

/-- The model's choice (log 4), no rule of the spec: a step in which the host issues nothing keeps the latch. -/
def Obligations.StepWithoutInputKeepsLatch : Prop :=
  ∀ s : State, s.inputs = [] → step s = .next { s with response := none }

/-- The tables are configuration (10_state.md R17; 30_encoding.md R33; 43_completion_code.md R140; log 21): `exec` and
`step` are the configured meaning and step at the default parameters. Configured, NEW.T stamps the tag the table gives `T`,
and a request on a type name the table leaves out is refused in every state (the model's choice, log 22). -/
def Obligations.ConfiguredMachine : Prop :=
  (∀ (i : Instr) (s : State), exec i s = execWith Config.default i s) ∧
  (∀ s : State, step s = stepWith Config.default s) ∧
  (∀ (cfg : Config) (i : Instr) (tag : BitVec 6), cfg.typeTable i.type = some tag →
    typeOpAnswersWith cfg i .new (.value (.typed i.type ⟨0, 0, 0, tag.setWidth 32 <<< 10⟩))) ∧
  (∀ (cfg : Config) (i : Instr) (s : State) (op : TypeOp) (t : RecType) (w : Raw), cfg.typeTable i.type = none →
    execWith cfg i (s.present (.onType op t w)) = .refused (.noSuchType (op.name i.type) i.type))
end

