-- ==== Sys2Proof/Laws/Config.lean ====
section
/-! SUPPORT. Lookups in the configuration's tables, and the default configuration is admissible
(70_reset_and_hazards.md R182). -/

namespace Sys2Proof

/-- Every type name is in the list of names. -/
theorem RecType.mem_all (t : RecType) : t ∈ RecType.all := by cases t <;> decide

/-- A tag lookup that succeeds gives a type with that tag. -/
theorem typeTable_of_typeOfTag (cfg : Config) (n : BitVec 6) (t : RecType) (h : typeOfTag cfg n = some t) :
    cfg.typeTable t = some n := by
  simpa using List.find?_some h

/-- A tag lookup fails exactly when no type has the tag. -/
theorem typeOfTag_eq_none (cfg : Config) (n : BitVec 6) : typeOfTag cfg n = none ↔ ∀ t, cfg.typeTable t ≠ some n := by
  simp [typeOfTag, RecType.mem_all]

/-- Under an injective table the tag of a type leads back to the type. -/
theorem typeOfTag_eq_some (cfg : Config) (h : cfg.Admissible) (n : BitVec 6) (t : RecType) :
    typeOfTag cfg n = some t ↔ cfg.typeTable t = some n := by
  refine ⟨typeTable_of_typeOfTag cfg n t, fun ht => ?_⟩
  cases hx : typeOfTag cfg n with
  | none => exact absurd ht ((typeOfTag_eq_none cfg n).1 hx t)
  | some u => rw [h.typeInjective u t n (typeTable_of_typeOfTag cfg n u hx) ht]

/-- What the completion-code decoder can answer: a name of a row with the byte, or the byte, which is in no row. -/
theorem Machine.ccDecode_cases (cfg : Config) (n : BitVec 8) :
    (∃ c, (c, n) ∈ cfg.ccTable ∧ ccDecode cfg n = .ok c) ∨
    ((∀ c, (c, n) ∉ cfg.ccTable) ∧ ccDecode cfg n = .error n) := by
  cases h : cfg.ccTable.find? (fun row => row.2 == n) with
  | none => exact .inr ⟨fun c hc => by simpa using List.find?_eq_none.1 h (c, n) hc, by simp [ccDecode, h]⟩
  | some row =>
    have hn : row.2 = n := by simpa using List.find?_some h
    exact .inl ⟨row.1, hn ▸ List.mem_of_find?_eq_some h, by simp [ccDecode, h]⟩

/-- The default tag of a type leads back to the type. -/
theorem typeOfTag_default (t : RecType) :
    ∃ n, Config.default.typeTable t = some n ∧ typeOfTag Config.default n = some t := by
  cases t <;> exact ⟨_, rfl, rfl⟩

/-- Every type name is in the default table. -/
theorem default_typeTable_isSome (t : RecType) : (Config.default.typeTable t).isSome = true := by cases t <;> rfl

/-- No two rows of the default completion-code table share a name or a value. -/
theorem defaultCcTable_nodup : (defaultCcTable.map Prod.fst).Nodup ∧ (defaultCcTable.map Prod.snd).Nodup := by decide

/-- The default configuration meets every constraint. -/
theorem Config.default_admissible : Config.default.Admissible where
  typeInjective a b n ha hb := by
    obtain ⟨m, hm, hd⟩ := typeOfTag_default a
    obtain ⟨k, hk, he⟩ := typeOfTag_default b
    cases ha.symm.trans hm
    cases hb.symm.trans hk
    exact Option.some.inj (hd.symm.trans he)
  commandTransferTag t n h ht := by cases t <;> first | (cases ht; decide) | cases h
  eventTag v := by cases v <;> exact ⟨_, rfl, by decide⟩
  typeNames := by decide
  ccOneValue c m n hm hn := congrArg Prod.snd (List.inj_on_of_nodup_map defaultCcTable_nodup.1 hm hn rfl)
  ccInjective a b n ha hb := congrArg Prod.fst (List.inj_on_of_nodup_map defaultCcTable_nodup.2 ha hb rfl)
  ccSuccess := by decide
  ccGaps c := by
    have h : (30 : BitVec 8) ∉ defaultCcTable.map Prod.snd ∧ (255 : BitVec 8) ∉ defaultCcTable.map Prod.snd := by decide
    exact ⟨fun hc => h.1 (List.mem_map_of_mem hc), fun hc => h.2 (List.mem_map_of_mem hc)⟩
  ccNames c hc := by
    fin_cases hc
    · exact ⟨6, by decide⟩
    · exact ⟨13, by decide⟩
    · exact ⟨25, by decide⟩

end Sys2Proof
end

