-- ==== Sys2Proof/Laws/State.lean ====
section
/-! SUPPORT. One lemma per field per update of the state. -/

namespace Sys2Proof.Machine

@[simp] theorem complete_fatal (s : State) (x : Response) : (s.complete x).fatal = s.fatal := rfl
@[simp] theorem complete_fatalCause (s : State) (x : Response) : (s.complete x).fatalCause = s.fatalCause := rfl
@[simp] theorem complete_inputs (s : State) (x : Response) : (s.complete x).inputs = s.inputs.tail := rfl
@[simp] theorem complete_response (s : State) (x : Response) : (s.complete x).response = some x := rfl

@[simp] theorem raiseFatal_fatal (s : State) (c : FatalCause) (op : OpName) : (s.raiseFatal c op).fatal = true := rfl
@[simp] theorem raiseFatal_fatalCause (s : State) (c : FatalCause) (op : OpName) :
    (s.raiseFatal c op).fatalCause = some (c, op) := rfl
@[simp] theorem raiseFatal_inputs (s : State) (c : FatalCause) (op : OpName) :
    (s.raiseFatal c op).inputs = s.inputs.tail := rfl
@[simp] theorem raiseFatal_response (s : State) (c : FatalCause) (op : OpName) :
    (s.raiseFatal c op).response = some .fault := rfl

@[simp] theorem takeReset_fatal (s : State) : s.takeReset.fatal = false := rfl
@[simp] theorem takeReset_fatalCause (s : State) : s.takeReset.fatalCause = none := rfl
@[simp] theorem takeReset_inputs (s : State) : s.takeReset.inputs = s.inputs.tail := rfl
@[simp] theorem takeReset_response (s : State) : s.takeReset.response = none := rfl

@[simp] theorem idle_fatal (s : State) : s.idle.fatal = s.fatal := rfl
@[simp] theorem idle_fatalCause (s : State) : s.idle.fatalCause = s.fatalCause := rfl
@[simp] theorem idle_inputs (s : State) : s.idle.inputs = s.inputs := rfl
@[simp] theorem idle_response (s : State) : s.idle.response = none := rfl

@[simp] theorem present_fatal (x : Input) (s : State) : (s.present x).fatal = s.fatal := rfl
@[simp] theorem present_fatalCause (x : Input) (s : State) : (s.present x).fatalCause = s.fatalCause := rfl
@[simp] theorem present_inputs (x : Input) (s : State) : (s.present x).inputs = x :: s.inputs := rfl
@[simp] theorem present_response (x : Input) (s : State) : (s.present x).response = s.response := rfl

@[simp] theorem answered_fatal (s : State) (x : Response) : (answered s x).fatal = s.fatal := rfl
@[simp] theorem answered_fatalCause (s : State) (x : Response) : (answered s x).fatalCause = s.fatalCause := rfl
@[simp] theorem answered_inputs (s : State) (x : Response) : (answered s x).inputs = s.inputs := rfl
@[simp] theorem answered_response (s : State) (x : Response) : (answered s x).response = some x := rfl

@[simp] theorem faulted_fatal (s : State) (c : FatalCause) (op : OpName) : (faulted s c op).fatal = true := rfl
@[simp] theorem faulted_fatalCause (s : State) (c : FatalCause) (op : OpName) :
    (faulted s c op).fatalCause = some (c, op) := rfl
@[simp] theorem faulted_inputs (s : State) (c : FatalCause) (op : OpName) : (faulted s c op).inputs = s.inputs := rfl
@[simp] theorem faulted_response (s : State) (c : FatalCause) (op : OpName) :
    (faulted s c op).response = some .fault := rfl

/-- Answering a request that stands before `s` leaves `s` with the answer. -/
@[simp] theorem complete_present (x : Input) (s : State) (y : Response) :
    (s.present x).complete y = answered s y := rfl

/-- A fault in a request that stands before `s` leaves `s` faulted. -/
@[simp] theorem raiseFatal_present (x : Input) (s : State) (c : FatalCause) (op : OpName) :
    (s.present x).raiseFatal c op = faulted s c op := rfl

/-- A state with an input waiting is that input presented before the rest. -/
theorem eq_present_of_inputs (s : State) (x : Input) (rest : List Input) (h : s.inputs = x :: rest) :
    s = State.present x { s with inputs := rest } := by
  cases s
  simp_all [State.present]

end Sys2Proof.Machine
end

