-- ==== Sys2Proof/Laws/Operands.lean ====
section
/-! SUPPORT. The bits of a written word, and what the setters can do. -/

namespace Sys2Proof.Machine

@[simp] theorem wordAt_setWordAt_same (r : Raw) (i : Fin 4) (x : Word) : wordAt (setWordAt r i x) i = x := by
  fin_cases i <;> rfl

theorem wordAt_setWordAt_other (r : Raw) (i j : Fin 4) (x : Word) (h : j ≠ i) :
    wordAt (setWordAt r i x) j = wordAt r j := by
  fin_cases i <;> fin_cases j <;> first | rfl | exact absurd rfl h

/-- Two records with equal words are equal. -/
theorem raw_ext (r r' : Raw) (h : ∀ i, wordAt r i = wordAt r' i) : r = r' := by
  have h0 := h 0; have h1 := h 1; have h2 := h 2; have h3 := h 3
  cases r; cases r'
  simp_all [wordAt]

/-- `mask(hi, lo)` has exactly the bits `lo` to `hi`. -/
theorem getLsbD_bitMask (hi lo k : Nat) (hl : lo ≤ hi) (hh : hi < 32) :
    (bitMask hi lo).getLsbD k = decide (lo ≤ k ∧ k ≤ hi) := by
  simp only [bitMask, BitVec.getLsbD_shiftLeft, BitVec.getLsbD_ofNat, Nat.testBit_two_pow_sub_one]
  rw [Bool.eq_iff_iff]
  simp only [Bool.and_eq_true, Bool.not_eq_true', decide_eq_true_eq, decide_eq_false_iff_not]
  omega

/-- The bits of a word after a write: the field's from the operand, every other as it was. -/
theorem getLsbD_writeBits (x : Word) (hi lo v k : Nat) (hl : lo ≤ hi) (hh : hi < 32) (hk : k < 32) :
    (writeBits x hi lo v).getLsbD k = if lo ≤ k ∧ k ≤ hi then v.testBit (k - lo) else x.getLsbD k := by
  simp only [writeBits, BitVec.getLsbD_or, BitVec.getLsbD_and, BitVec.getLsbD_not, getLsbD_bitMask _ _ _ hl hh,
    BitVec.getLsbD_shiftLeft, BitVec.getLsbD_ofNat, hk]
  have hk' : k - lo < 32 := by omega
  by_cases h1 : lo ≤ k <;> by_cases h2 : k ≤ hi <;> simp [h1, h2, hk']

/-- The contract checks: width first, then alignment, else none (44_link_contracts.md R155). -/
theorem violation_cases (n a v : Nat) :
    (2 ^ n ≤ v ∧ violation n a v = some .widthViolation) ∨
    (v < 2 ^ n ∧ v % a ≠ 0 ∧ violation n a v = some .alignmentViolation) ∨
    (v < 2 ^ n ∧ v % a = 0 ∧ violation n a v = none) := by
  by_cases h : v < 2 ^ n <;> by_cases h2 : v % a = 0 <;> simp_all [violation, fits, aligned]

/-- What a single-word setter can do. -/
theorem setField_cases (r : Raw) (w : Fin 4) (hi lo v : Nat) :
    (2 ^ (hi - lo + 1) ≤ v ∧ setField r w hi lo v = .error .widthViolation) ∨
    (v < 2 ^ (hi - lo + 1) ∧
      setField r w hi lo v = .ok (setWordAt r w (writeBits (wordAt r w) hi lo v))) := by
  rcases violation_cases (hi - lo + 1) 1 v with ⟨h, e⟩ | ⟨-, h, -⟩ | ⟨h, -, e⟩
  · exact .inl ⟨h, by simp [setField, e]⟩
  · exact absurd (Nat.mod_one v) h
  · exact .inr ⟨h, by simp [setField, e]⟩

/-- What a pointer setter can do. -/
theorem setPtr_cases (r : Raw) (v a : Nat) :
    (2 ^ 64 ≤ v ∧ setPtr r v a = .error .widthViolation) ∨
    (v < 2 ^ 64 ∧ v % a ≠ 0 ∧ setPtr r v a = .error .alignmentViolation) ∨
    (v < 2 ^ 64 ∧ v % a = 0 ∧
      setPtr r v a = .ok { r with w0 := BitVec.ofNat 32 v, w1 := BitVec.ofNat 32 (v / 2 ^ 32) }) := by
  rcases violation_cases 64 a v with ⟨h, e⟩ | ⟨h, h2, e⟩ | ⟨h, h2, e⟩
  · exact .inl ⟨h, by simp [setPtr, e]⟩
  · exact .inr (.inl ⟨h, h2, by simp [setPtr, e]⟩)
  · exact .inr (.inr ⟨h, h2, by simp [setPtr, e]⟩)

/-- What the notification-data setter can do. -/
theorem setNotificationData_cases (r : Raw) (v : Nat) :
    (2 ^ 56 ≤ v ∧ setNotificationData r v = .error .widthViolation) ∨
    (v < 2 ^ 56 ∧ setNotificationData r v =
      .ok { r with w0 := writeBits r.w0 31 8 v, w1 := BitVec.ofNat 32 (v / 2 ^ 24) }) := by
  rcases violation_cases 56 1 v with ⟨h, e⟩ | ⟨-, h, -⟩ | ⟨h, -, e⟩
  · exact .inl ⟨h, by simp [setNotificationData, e]⟩
  · exact absurd (Nat.mod_one v) h
  · exact .inr ⟨h, by simp [setNotificationData, e]⟩

end Sys2Proof.Machine
end

