-- ==== Sys2Proof/Laws/Views.lean ====
section
/-! SUPPORT. The view of 128 bits as a record of a type and the four words of that record are inverse, so no bit of a
record is lost by decoding it (40_framework.md R53, R54). -/

set_option linter.unusedSimpArgs false

namespace Sys2Proof

theorem TagOnly.ofRaw_toRaw (r : TagOnly) : TagOnly.ofRaw r.toRaw = r := by
  cases r
  simp only [TagOnly.ofRaw, TagOnly.toRaw, TagOnly.mk.injEq]
  and_intros <;> first | trivial | (ext i hi; simp only [BitVec.getElem_extractLsb', BitVec.getElem_append, BitVec.getLsbD_append, BitVec.getLsbD_extractLsb', BitVec.getLsbD_eq_getElem, hi]; grind)

theorem TagOnly.toRaw_ofRaw (w : Raw) : (TagOnly.ofRaw w).toRaw = w := by
  cases w
  simp only [TagOnly.ofRaw, TagOnly.toRaw, Raw.mk.injEq]
  and_intros <;> first | trivial | (ext i hi; simp only [BitVec.getElem_extractLsb', BitVec.getElem_append, BitVec.getLsbD_append, BitVec.getLsbD_extractLsb', BitVec.getLsbD_eq_getElem, hi]; grind)

theorem LinkRec.ofRaw_toRaw (r : LinkRec) : LinkRec.ofRaw r.toRaw = r := by
  cases r
  simp only [LinkRec.ofRaw, LinkRec.toRaw, LinkRec.mk.injEq]
  and_intros <;> first | trivial | (ext i hi; simp only [BitVec.getElem_extractLsb', BitVec.getElem_append, BitVec.getLsbD_append, BitVec.getLsbD_extractLsb', BitVec.getLsbD_eq_getElem, hi]; grind)

theorem LinkRec.toRaw_ofRaw (w : Raw) : (LinkRec.ofRaw w).toRaw = w := by
  cases w
  simp only [LinkRec.ofRaw, LinkRec.toRaw, Raw.mk.injEq]
  and_intros <;> first | trivial | (ext i hi; simp only [BitVec.getElem_extractLsb', BitVec.getElem_append, BitVec.getLsbD_append, BitVec.getLsbD_extractLsb', BitVec.getLsbD_eq_getElem, hi]; grind)

theorem TransferEventRec.ofRaw_toRaw (r : TransferEventRec) : TransferEventRec.ofRaw r.toRaw = r := by
  cases r
  simp only [TransferEventRec.ofRaw, TransferEventRec.toRaw, TransferEventRec.mk.injEq]
  and_intros <;> first | trivial | (ext i hi; simp only [BitVec.getElem_extractLsb', BitVec.getElem_append, BitVec.getLsbD_append, BitVec.getLsbD_extractLsb', BitVec.getLsbD_eq_getElem, hi]; grind)

theorem TransferEventRec.toRaw_ofRaw (w : Raw) : (TransferEventRec.ofRaw w).toRaw = w := by
  cases w
  simp only [TransferEventRec.ofRaw, TransferEventRec.toRaw, Raw.mk.injEq]
  and_intros <;> first | trivial | (ext i hi; simp only [BitVec.getElem_extractLsb', BitVec.getElem_append, BitVec.getLsbD_append, BitVec.getLsbD_extractLsb', BitVec.getLsbD_eq_getElem, hi]; grind)

theorem CommandCompletionRec.ofRaw_toRaw (r : CommandCompletionRec) : CommandCompletionRec.ofRaw r.toRaw = r := by
  cases r
  simp only [CommandCompletionRec.ofRaw, CommandCompletionRec.toRaw, CommandCompletionRec.mk.injEq]
  and_intros <;> first | trivial | (ext i hi; simp only [BitVec.getElem_extractLsb', BitVec.getElem_append, BitVec.getLsbD_append, BitVec.getLsbD_extractLsb', BitVec.getLsbD_eq_getElem, hi]; grind)

theorem CommandCompletionRec.toRaw_ofRaw (w : Raw) : (CommandCompletionRec.ofRaw w).toRaw = w := by
  cases w
  simp only [CommandCompletionRec.ofRaw, CommandCompletionRec.toRaw, Raw.mk.injEq]
  and_intros <;> first | trivial | (ext i hi; simp only [BitVec.getElem_extractLsb', BitVec.getElem_append, BitVec.getLsbD_append, BitVec.getLsbD_extractLsb', BitVec.getLsbD_eq_getElem, hi]; grind)

theorem PortStatusChangeRec.ofRaw_toRaw (r : PortStatusChangeRec) : PortStatusChangeRec.ofRaw r.toRaw = r := by
  cases r
  simp only [PortStatusChangeRec.ofRaw, PortStatusChangeRec.toRaw, PortStatusChangeRec.mk.injEq]
  and_intros <;> first | trivial | (ext i hi; simp only [BitVec.getElem_extractLsb', BitVec.getElem_append, BitVec.getLsbD_append, BitVec.getLsbD_extractLsb', BitVec.getLsbD_eq_getElem, hi]; grind)

theorem PortStatusChangeRec.toRaw_ofRaw (w : Raw) : (PortStatusChangeRec.ofRaw w).toRaw = w := by
  cases w
  simp only [PortStatusChangeRec.ofRaw, PortStatusChangeRec.toRaw, Raw.mk.injEq]
  and_intros <;> first | trivial | (ext i hi; simp only [BitVec.getElem_extractLsb', BitVec.getElem_append, BitVec.getLsbD_append, BitVec.getLsbD_extractLsb', BitVec.getLsbD_eq_getElem, hi]; grind)

theorem BandwidthRequestRec.ofRaw_toRaw (r : BandwidthRequestRec) : BandwidthRequestRec.ofRaw r.toRaw = r := by
  cases r
  simp only [BandwidthRequestRec.ofRaw, BandwidthRequestRec.toRaw, BandwidthRequestRec.mk.injEq]
  and_intros <;> first | trivial | (ext i hi; simp only [BitVec.getElem_extractLsb', BitVec.getElem_append, BitVec.getLsbD_append, BitVec.getLsbD_extractLsb', BitVec.getLsbD_eq_getElem, hi]; grind)

theorem BandwidthRequestRec.toRaw_ofRaw (w : Raw) : (BandwidthRequestRec.ofRaw w).toRaw = w := by
  cases w
  simp only [BandwidthRequestRec.ofRaw, BandwidthRequestRec.toRaw, Raw.mk.injEq]
  and_intros <;> first | trivial | (ext i hi; simp only [BitVec.getElem_extractLsb', BitVec.getElem_append, BitVec.getLsbD_append, BitVec.getLsbD_extractLsb', BitVec.getLsbD_eq_getElem, hi]; grind)

theorem DoorbellRec.ofRaw_toRaw (r : DoorbellRec) : DoorbellRec.ofRaw r.toRaw = r := by
  cases r
  simp only [DoorbellRec.ofRaw, DoorbellRec.toRaw, DoorbellRec.mk.injEq]
  and_intros <;> first | trivial | (ext i hi; simp only [BitVec.getElem_extractLsb', BitVec.getElem_append, BitVec.getLsbD_append, BitVec.getLsbD_extractLsb', BitVec.getLsbD_eq_getElem, hi]; grind)

theorem DoorbellRec.toRaw_ofRaw (w : Raw) : (DoorbellRec.ofRaw w).toRaw = w := by
  cases w
  simp only [DoorbellRec.ofRaw, DoorbellRec.toRaw, Raw.mk.injEq]
  and_intros <;> first | trivial | (ext i hi; simp only [BitVec.getElem_extractLsb', BitVec.getElem_append, BitVec.getLsbD_append, BitVec.getLsbD_extractLsb', BitVec.getLsbD_eq_getElem, hi]; grind)

theorem HostControllerRec.ofRaw_toRaw (r : HostControllerRec) : HostControllerRec.ofRaw r.toRaw = r := by
  cases r
  simp only [HostControllerRec.ofRaw, HostControllerRec.toRaw, HostControllerRec.mk.injEq]
  and_intros <;> first | trivial | (ext i hi; simp only [BitVec.getElem_extractLsb', BitVec.getElem_append, BitVec.getLsbD_append, BitVec.getLsbD_extractLsb', BitVec.getLsbD_eq_getElem, hi]; grind)

theorem HostControllerRec.toRaw_ofRaw (w : Raw) : (HostControllerRec.ofRaw w).toRaw = w := by
  cases w
  simp only [HostControllerRec.ofRaw, HostControllerRec.toRaw, Raw.mk.injEq]
  and_intros <;> first | trivial | (ext i hi; simp only [BitVec.getElem_extractLsb', BitVec.getElem_append, BitVec.getLsbD_append, BitVec.getLsbD_extractLsb', BitVec.getLsbD_eq_getElem, hi]; grind)

theorem DeviceNotificationRec.ofRaw_toRaw (r : DeviceNotificationRec) : DeviceNotificationRec.ofRaw r.toRaw = r := by
  cases r
  simp only [DeviceNotificationRec.ofRaw, DeviceNotificationRec.toRaw, DeviceNotificationRec.mk.injEq]
  and_intros <;> first | trivial | (ext i hi; simp only [BitVec.getElem_extractLsb', BitVec.getElem_append, BitVec.getLsbD_append, BitVec.getLsbD_extractLsb', BitVec.getLsbD_eq_getElem, hi]; grind)

theorem DeviceNotificationRec.toRaw_ofRaw (w : Raw) : (DeviceNotificationRec.ofRaw w).toRaw = w := by
  cases w
  simp only [DeviceNotificationRec.ofRaw, DeviceNotificationRec.toRaw, Raw.mk.injEq]
  and_intros <;> first | trivial | (ext i hi; simp only [BitVec.getElem_extractLsb', BitVec.getElem_append, BitVec.getLsbD_append, BitVec.getLsbD_extractLsb', BitVec.getLsbD_eq_getElem, hi]; grind)

theorem MfindexWrapRec.ofRaw_toRaw (r : MfindexWrapRec) : MfindexWrapRec.ofRaw r.toRaw = r := by
  cases r
  simp only [MfindexWrapRec.ofRaw, MfindexWrapRec.toRaw, MfindexWrapRec.mk.injEq]
  and_intros <;> first | trivial | (ext i hi; simp only [BitVec.getElem_extractLsb', BitVec.getElem_append, BitVec.getLsbD_append, BitVec.getLsbD_extractLsb', BitVec.getLsbD_eq_getElem, hi]; grind)

theorem MfindexWrapRec.toRaw_ofRaw (w : Raw) : (MfindexWrapRec.ofRaw w).toRaw = w := by
  cases w
  simp only [MfindexWrapRec.ofRaw, MfindexWrapRec.toRaw, Raw.mk.injEq]
  and_intros <;> first | trivial | (ext i hi; simp only [BitVec.getElem_extractLsb', BitVec.getElem_append, BitVec.getLsbD_append, BitVec.getLsbD_extractLsb', BitVec.getLsbD_eq_getElem, hi]; grind)

/-- The words of a view are the words viewed. -/
theorem encode_view (t : RecType) (w : Raw) : encode (Instr.view t w) = w := by
  cases t <;> simp only [Instr.view, encode, TagOnly.toRaw_ofRaw, LinkRec.toRaw_ofRaw, TransferEventRec.toRaw_ofRaw, CommandCompletionRec.toRaw_ofRaw, PortStatusChangeRec.toRaw_ofRaw, BandwidthRequestRec.toRaw_ofRaw, DoorbellRec.toRaw_ofRaw, HostControllerRec.toRaw_ofRaw, DeviceNotificationRec.toRaw_ofRaw, MfindexWrapRec.toRaw_ofRaw]

/-- A view has the type it was asked for. -/
@[simp] theorem type_view (t : RecType) (w : Raw) : (Instr.view t w).type = t := by
  cases t <;> rfl

end Sys2Proof
end

