-- ==== Sys2Proof/Laws/Ops.lean ====
section
/-! SUPPORT. What each shared operation can do, said once. -/

namespace Sys2Proof.Machine

/-- The meaning of any instruction is the configured one at the default parameters. -/
theorem exec_eq_execWith (i : Instr) (s : State) : exec i s = execWith Config.default i s := by
  cases i <;> rfl

/-- The step is the configured one at the default parameters. -/
theorem step_eq_stepWith (s : State) : step s = stepWith Config.default s := by
  simp only [step, stepWith, stepBy, exec_eq_execWith]

/-- An operation of the block does one of four things (60_exceptions.md R160, R166): it is declined, it answers, it
enters the fault, or the gate answers for it. -/
theorem perform_cases (op : OpName) (e : Effect) (s : State) :
    (∃ ρ, e = .refuse ρ ∧ perform op e s = .refused ρ) ∨
    (∃ x, e = .respond x ∧ s.fatal = false ∧ perform op e s = .next (s.complete x)) ∨
    (∃ c, e = .fatal c ∧ s.fatal = false ∧ perform op e s = .next (s.raiseFatal c op)) ∨
    ((∀ ρ, e ≠ .refuse ρ) ∧ s.fatal = true ∧ perform op e s = .next (s.complete .fault)) := by
  cases hs : s.fatal <;> cases e <;> simp [perform, hs]

/-- An operation that answers does so in a state whose latch is clear. -/
theorem perform_respond (op : OpName) (x : Response) (s : State) (h : s.fatal = false) :
    perform op (.respond x) s = .next (s.complete x) := by
  simp [perform, h]

/-- Fault entry from a state whose latch is clear. -/
theorem perform_fatal (op : OpName) (c : FatalCause) (s : State) (h : s.fatal = false) :
    perform op (.fatal c) s = .next (s.raiseFatal c op) := by
  simp [perform, h]

/-- A request that is no operation is declined whatever the latch holds. -/
theorem perform_refuse (op : OpName) (ρ : Refusal) (s : State) : perform op (.refuse ρ) s = .refused ρ := rfl

/-- The gate (60_exceptions.md R168). -/
theorem perform_gate (op : OpName) (e : Effect) (s : State) (h : s.fatal = true) (hr : ∀ ρ, e ≠ .refuse ρ) :
    perform op e s = .next (s.complete .fault) := by
  cases e <;> simp_all [perform]

/-- The meaning on a request that names a type. -/
theorem execWith_onType (cfg : Config) (i : Instr) (s : State) (op : TypeOp) (t : RecType) (w : Raw) :
    execWith cfg i (s.present (.onType op t w)) =
      perform (op.name i.type) (typeEffect cfg i.type (encode i) op) (s.present (.onType op t w)) := rfl

/-- The meaning on a request on the union Allowed. -/
theorem execWith_onAllowed (cfg : Config) (i : Instr) (s : State) (op : AllowedOp) (v : EventVariant) (w : Raw) :
    execWith cfg i (s.present (.onAllowed op v w)) =
      perform op.name (allowedEffect i.type (encode i) op) (s.present (.onAllowed op v w)) := rfl

/-- The meaning on a request on a raw record. -/
theorem execWith_onRaw (cfg : Config) (i : Instr) (s : State) (op : RawOp) (w : Raw) :
    execWith cfg i (s.present (.onRaw op w)) =
      perform op.name (rawEffect cfg (encode i) op) (s.present (.onRaw op w)) := rfl

theorem exec_onType (i : Instr) (s : State) (op : TypeOp) (t : RecType) (w : Raw) :
    exec i (s.present (.onType op t w)) =
      perform (op.name i.type) (typeEffect Config.default i.type (encode i) op) (s.present (.onType op t w)) := by
  rw [exec_eq_execWith, execWith_onType]

theorem exec_onAllowed (i : Instr) (s : State) (op : AllowedOp) (v : EventVariant) (w : Raw) :
    exec i (s.present (.onAllowed op v w)) =
      perform op.name (allowedEffect i.type (encode i) op) (s.present (.onAllowed op v w)) := by
  rw [exec_eq_execWith, execWith_onAllowed]

theorem exec_onRaw (i : Instr) (s : State) (op : RawOp) (w : Raw) :
    exec i (s.present (.onRaw op w)) =
      perform op.name (rawEffect Config.default (encode i) op) (s.present (.onRaw op w)) := by
  rw [exec_eq_execWith, execWith_onRaw]

/-- What the effect of an operation on a type name can be: refused for want of the name, or the operation's own. -/
theorem typeEffect_eq (cfg : Config) (t : RecType) (r : Raw) (op : TypeOp) :
    (cfg.typeTable t = none ∧ typeEffect cfg t r op = .refuse (.noSuchType (op.name t) t)) ∨
    (∃ tag, cfg.typeTable t = some tag ∧ typeEffect cfg t r op = typedEffect cfg t tag r op) := by
  cases h : cfg.typeTable t <;> simp [typeEffect, h]

/-- Under the default table every type name has a tag. -/
theorem typeEffect_default (t : RecType) (r : Raw) (op : TypeOp) :
    ∃ tag, Config.default.typeTable t = some tag ∧
      typeEffect Config.default t r op = typedEffect Config.default t tag r op := by
  cases t <;> exact ⟨_, rfl, rfl⟩

/-- What the effect of an operation on a named type can be: an answer that is no fault, a setter's broken contract, or a
refusal. -/
theorem typeEffect_cases (cfg : Config) (t : RecType) (r : Raw) (op : TypeOp) :
    (∃ x, x ≠ .fault ∧ typeEffect cfg t r op = .respond x) ∨
    (∃ call c, op = .set call ∧ SetterCall.appliesTo t call = true ∧ SetterCall.apply call r = .error c ∧
      typeEffect cfg t r op = .fatal c) ∨
    (∃ ρ, typeEffect cfg t r op = .refuse ρ) := by
  rcases typeEffect_eq cfg t r op with ⟨-, h⟩ | ⟨tag, -, h⟩
  · exact .inr (.inr ⟨_, h⟩)
  rw [h]
  cases op with
  | set call =>
    by_cases h : SetterCall.appliesTo t call = true
    · cases ha : SetterCall.apply call r <;> simp [typedEffect, h, ha]
    · simp [typedEffect, h]
  | get f =>
    by_cases h : f.owner = t
    · simp only [typedEffect, h, if_true]
      refine .inl ⟨_, ?_, rfl⟩
      unfold fieldResponse ccResponse
      split <;> try split
      all_goals simp
    · simp [typedEffect, h]
  | tryV =>
    simp only [typedEffect]
    split
    · split <;> simp
    · simp
  | wrap =>
    simp only [typedEffect]
    split <;> simp
  | _ => simp [typedEffect]

/-- An operation on an alternative of the union always answers. -/
theorem allowedEffect_responds (v : EventVariant) (r : Raw) (op : AllowedOp) :
    ∃ x, x ≠ .fault ∧ allowedEffect v.toType r op = .respond x := by
  cases v <;> cases op <;> simp [allowedEffect, EventVariant.toType, RecType.event?]

/-- An operation on a raw record always answers. -/
theorem rawEffect_responds (cfg : Config) (w : Raw) (op : RawOp) :
    ∃ x, x ≠ .fault ∧ rawEffect cfg w op = .respond x := by
  cases op <;> simp only [rawEffect] <;> split <;> simp

/-- The completion-code lookup is no fault. -/
theorem ccResponse_ne_fault (cfg : Config) (n : BitVec 8) : ccResponse cfg n ≠ .fault := by
  unfold ccResponse
  split <;> simp

/-- The type the decoder gives is the type of the words' own tag, and the record is the words' view. -/
theorem decode_eq_view (cfg : Config) (w : Raw) (i : Instr) (h : decode cfg w = .ok i) :
    ∃ t, typeOfTag cfg (tagOf w) = some t ∧ i = Instr.view t w ∧ i.wellFormed cfg = true := by
  unfold decode at h
  split at h
  · cases h
  · rename_i t ht
    split at h
    · cases h; exact ⟨t, ht, rfl, by assumption⟩
    · cases h

/-! What a step finds and does, input by input, for any configuration. -/

theorem stepWith_nothing (cfg : Config) (s : State) (h : s.inputs = []) : stepWith cfg s = .next s.idle := by
  simp [stepWith, stepBy, fetch, h]

theorem stepWith_reset (cfg : Config) (s : State) :
    stepWith cfg (s.present .reset) = .next (s.present .reset).takeReset := rfl

theorem stepWith_ccDecode (cfg : Config) (s : State) (n : BitVec 8) :
    stepWith cfg (s.present (.ccDecode n)) =
      perform .ccDecode (.respond (ccResponse cfg n)) (s.present (.ccDecode n)) := rfl

theorem stepWith_onType (cfg : Config) (s : State) (op : TypeOp) (t : RecType) (w : Raw) :
    stepWith cfg (s.present (.onType op t w)) =
      perform (op.name t) (typeEffect cfg t w op) (s.present (.onType op t w)) := by
  have h : stepWith cfg (s.present (.onType op t w)) = execWith cfg (Instr.view t w) (s.present (.onType op t w)) := rfl
  rw [h, execWith_onType, type_view, encode_view]

theorem stepWith_onAllowed (cfg : Config) (s : State) (op : AllowedOp) (v : EventVariant) (w : Raw) :
    stepWith cfg (s.present (.onAllowed op v w)) =
      perform op.name (allowedEffect v.toType w op) (s.present (.onAllowed op v w)) := by
  have h : stepWith cfg (s.present (.onAllowed op v w)) =
      execWith cfg (Instr.view v.toType w) (s.present (.onAllowed op v w)) := rfl
  rw [h, execWith_onAllowed, type_view, encode_view]

/-- A request on a raw record is answered by the same rule whether or not the record decodes. -/
theorem stepWith_onRaw (cfg : Config) (s : State) (op : RawOp) (w : Raw) :
    stepWith cfg (s.present (.onRaw op w)) = perform op.name (rawEffect cfg w op) (s.present (.onRaw op w)) := by
  cases h : decode cfg w with
  | ok i =>
    obtain ⟨t, -, rfl, -⟩ := decode_eq_view _ _ _ h
    have hs : stepWith cfg (s.present (.onRaw op w)) = execWith cfg (Instr.view t w) (s.present (.onRaw op w)) := by
      simp [stepWith, stepBy, fetch, h]
    rw [hs, execWith_onRaw, encode_view]
  | error e => simp [stepWith, stepBy, fetch, h, performRaw]

/-! The same for the step of the default instance. -/

theorem step_nothing (s : State) (h : s.inputs = []) : step s = .next s.idle := by
  rw [step_eq_stepWith, stepWith_nothing _ _ h]

theorem step_reset (s : State) : step (s.present .reset) = .next (s.present .reset).takeReset := rfl

theorem step_ccDecode (s : State) (n : BitVec 8) :
    step (s.present (.ccDecode n)) =
      perform .ccDecode (.respond (ccResponse Config.default n)) (s.present (.ccDecode n)) := rfl

theorem step_onType (s : State) (op : TypeOp) (t : RecType) (w : Raw) :
    step (s.present (.onType op t w)) =
      perform (op.name t) (typeEffect Config.default t w op) (s.present (.onType op t w)) := by
  rw [step_eq_stepWith, stepWith_onType]

theorem step_onAllowed (s : State) (op : AllowedOp) (v : EventVariant) (w : Raw) :
    step (s.present (.onAllowed op v w)) =
      perform op.name (allowedEffect v.toType w op) (s.present (.onAllowed op v w)) := by
  rw [step_eq_stepWith, stepWith_onAllowed]

theorem step_onRaw (s : State) (op : RawOp) (w : Raw) :
    step (s.present (.onRaw op w)) = perform op.name (rawEffect Config.default w op) (s.present (.onRaw op w)) := by
  rw [step_eq_stepWith, stepWith_onRaw]

end Sys2Proof.Machine
end

