-- ==== Sys2Proof/Laws/PerInstr.lean ====
section
/-! SUPPORT. Families of facts about every instruction, one lemma per constructor. -/

namespace Sys2Proof.Laws

/-- Viewing the words an instruction encodes to, as the instruction's own type, gives the instruction back. -/
def ViewEncode.Statement (i : Instr) : Prop := Instr.view i.type (encode i) = i

theorem ViewEncode.normal (r : TagOnly) : ViewEncode.Statement (.normal r) :=
  congrArg Instr.normal (TagOnly.ofRaw_toRaw r)

theorem ViewEncode.setupStage (r : TagOnly) : ViewEncode.Statement (.setupStage r) :=
  congrArg Instr.setupStage (TagOnly.ofRaw_toRaw r)

theorem ViewEncode.dataStage (r : TagOnly) : ViewEncode.Statement (.dataStage r) :=
  congrArg Instr.dataStage (TagOnly.ofRaw_toRaw r)

theorem ViewEncode.statusStage (r : TagOnly) : ViewEncode.Statement (.statusStage r) :=
  congrArg Instr.statusStage (TagOnly.ofRaw_toRaw r)

theorem ViewEncode.isoch (r : TagOnly) : ViewEncode.Statement (.isoch r) :=
  congrArg Instr.isoch (TagOnly.ofRaw_toRaw r)

theorem ViewEncode.link (r : LinkRec) : ViewEncode.Statement (.link r) :=
  congrArg Instr.link (LinkRec.ofRaw_toRaw r)

theorem ViewEncode.eventData (r : TagOnly) : ViewEncode.Statement (.eventData r) :=
  congrArg Instr.eventData (TagOnly.ofRaw_toRaw r)

theorem ViewEncode.noopTransfer (r : TagOnly) : ViewEncode.Statement (.noopTransfer r) :=
  congrArg Instr.noopTransfer (TagOnly.ofRaw_toRaw r)

theorem ViewEncode.enableSlot (r : TagOnly) : ViewEncode.Statement (.enableSlot r) :=
  congrArg Instr.enableSlot (TagOnly.ofRaw_toRaw r)

theorem ViewEncode.disableSlot (r : TagOnly) : ViewEncode.Statement (.disableSlot r) :=
  congrArg Instr.disableSlot (TagOnly.ofRaw_toRaw r)

theorem ViewEncode.addressDevice (r : TagOnly) : ViewEncode.Statement (.addressDevice r) :=
  congrArg Instr.addressDevice (TagOnly.ofRaw_toRaw r)

theorem ViewEncode.configureEndpoint (r : TagOnly) : ViewEncode.Statement (.configureEndpoint r) :=
  congrArg Instr.configureEndpoint (TagOnly.ofRaw_toRaw r)

theorem ViewEncode.evaluateContext (r : TagOnly) : ViewEncode.Statement (.evaluateContext r) :=
  congrArg Instr.evaluateContext (TagOnly.ofRaw_toRaw r)

theorem ViewEncode.resetEndpoint (r : TagOnly) : ViewEncode.Statement (.resetEndpoint r) :=
  congrArg Instr.resetEndpoint (TagOnly.ofRaw_toRaw r)

theorem ViewEncode.stopEndpoint (r : TagOnly) : ViewEncode.Statement (.stopEndpoint r) :=
  congrArg Instr.stopEndpoint (TagOnly.ofRaw_toRaw r)

theorem ViewEncode.setTrDequeuePointer (r : TagOnly) : ViewEncode.Statement (.setTrDequeuePointer r) :=
  congrArg Instr.setTrDequeuePointer (TagOnly.ofRaw_toRaw r)

theorem ViewEncode.resetDevice (r : TagOnly) : ViewEncode.Statement (.resetDevice r) :=
  congrArg Instr.resetDevice (TagOnly.ofRaw_toRaw r)

theorem ViewEncode.forceEvent (r : TagOnly) : ViewEncode.Statement (.forceEvent r) :=
  congrArg Instr.forceEvent (TagOnly.ofRaw_toRaw r)

theorem ViewEncode.negotiateBandwidth (r : TagOnly) : ViewEncode.Statement (.negotiateBandwidth r) :=
  congrArg Instr.negotiateBandwidth (TagOnly.ofRaw_toRaw r)

theorem ViewEncode.setLatencyToleranceValue (r : TagOnly) : ViewEncode.Statement (.setLatencyToleranceValue r) :=
  congrArg Instr.setLatencyToleranceValue (TagOnly.ofRaw_toRaw r)

theorem ViewEncode.getPortBandwidth (r : TagOnly) : ViewEncode.Statement (.getPortBandwidth r) :=
  congrArg Instr.getPortBandwidth (TagOnly.ofRaw_toRaw r)

theorem ViewEncode.forceHeader (r : TagOnly) : ViewEncode.Statement (.forceHeader r) :=
  congrArg Instr.forceHeader (TagOnly.ofRaw_toRaw r)

theorem ViewEncode.noopCommand (r : TagOnly) : ViewEncode.Statement (.noopCommand r) :=
  congrArg Instr.noopCommand (TagOnly.ofRaw_toRaw r)

theorem ViewEncode.getExtendedProperty (r : TagOnly) : ViewEncode.Statement (.getExtendedProperty r) :=
  congrArg Instr.getExtendedProperty (TagOnly.ofRaw_toRaw r)

theorem ViewEncode.setExtendedProperty (r : TagOnly) : ViewEncode.Statement (.setExtendedProperty r) :=
  congrArg Instr.setExtendedProperty (TagOnly.ofRaw_toRaw r)

theorem ViewEncode.transferEvent (r : TransferEventRec) : ViewEncode.Statement (.transferEvent r) :=
  congrArg Instr.transferEvent (TransferEventRec.ofRaw_toRaw r)

theorem ViewEncode.commandCompletion (r : CommandCompletionRec) : ViewEncode.Statement (.commandCompletion r) :=
  congrArg Instr.commandCompletion (CommandCompletionRec.ofRaw_toRaw r)

theorem ViewEncode.portStatusChange (r : PortStatusChangeRec) : ViewEncode.Statement (.portStatusChange r) :=
  congrArg Instr.portStatusChange (PortStatusChangeRec.ofRaw_toRaw r)

theorem ViewEncode.bandwidthRequest (r : BandwidthRequestRec) : ViewEncode.Statement (.bandwidthRequest r) :=
  congrArg Instr.bandwidthRequest (BandwidthRequestRec.ofRaw_toRaw r)

theorem ViewEncode.doorbell (r : DoorbellRec) : ViewEncode.Statement (.doorbell r) :=
  congrArg Instr.doorbell (DoorbellRec.ofRaw_toRaw r)

theorem ViewEncode.hostController (r : HostControllerRec) : ViewEncode.Statement (.hostController r) :=
  congrArg Instr.hostController (HostControllerRec.ofRaw_toRaw r)

theorem ViewEncode.deviceNotification (r : DeviceNotificationRec) : ViewEncode.Statement (.deviceNotification r) :=
  congrArg Instr.deviceNotification (DeviceNotificationRec.ofRaw_toRaw r)

theorem ViewEncode.mfindexWrap (r : MfindexWrapRec) : ViewEncode.Statement (.mfindexWrap r) :=
  congrArg Instr.mfindexWrap (MfindexWrapRec.ofRaw_toRaw r)

end Sys2Proof.Laws
end

