-- ==== Sys2Proof/Laws/Validate.lean ====
section
/-! SUPPORT. What the validator and the classifier can answer, the bits of a reserved range, and the cycle bit. -/

namespace Sys2Proof.Machine

/-- A validator answers with the words it was given, whichever way (41_validate_classify.md R84). -/
theorem tryV_cases (cfg : Config) (v : EventVariant) (w : Raw) :
    (valid cfg v w = true ∧ tryV cfg v w = .ok w) ∨ (valid cfg v w = false ∧ tryV cfg v w = .error w) := by
  cases h : valid cfg v w <;> simp [tryV, h]

/-- A valid record holds its variant's tag. -/
theorem tagOf_of_valid (cfg : Config) (v : EventVariant) (w : Raw) (h : valid cfg v w = true) :
    cfg.typeTable v.toType = some (tagOf w) := by
  simp only [valid, Bool.and_eq_true, beq_iff_eq] at h
  exact h.1

/-- The name of an event variant tells the variant. -/
theorem EventVariant.toType_injective (u v : EventVariant) (h : u.toType = v.toType) : u = v := by
  cases u <;> cases v <;> first | rfl | cases h

/-- Every event variant is in the fixed order. -/
theorem mem_eventOrder (v : EventVariant) : v ∈ eventOrder := by cases v <;> decide

/-- Trying a list of variants answers with a variant of the list that accepts the record, or, when none does, with the
record. -/
theorem firstMatch_cases (cfg : Config) (w : Raw) (order : List EventVariant) :
    (∃ v ∈ order, valid cfg v w = true ∧ firstMatch cfg w order = .ok (v, w)) ∨
    ((∀ v ∈ order, valid cfg v w = false) ∧ firstMatch cfg w order = .error w) := by
  induction order with
  | nil => exact .inr ⟨by simp, rfl⟩
  | cons v rest ih =>
    rcases tryV_cases cfg v w with ⟨hv, ht⟩ | ⟨hv, ht⟩
    · exact .inl ⟨v, by simp, hv, by simp [firstMatch, ht]⟩
    · rcases ih with ⟨u, hu, hval, hm⟩ | ⟨hall, hm⟩
      · exact .inl ⟨u, by simp [hu], hval, by simp [firstMatch, ht, hm]⟩
      · exact .inr ⟨by simpa [hv] using hall, by simp [firstMatch, ht, hm]⟩

/-- A word shares no bit with a mask exactly when it is zero on every bit of the mask. -/
theorem and_eq_zero_iff (x m : Word) :
    x &&& m = 0 ↔ ∀ k, k < 32 → m.getLsbD k = true → x.getLsbD k = false := by
  constructor
  · intro h k _ hm
    have hk := congrArg (fun y : Word => y.getLsbD k) h
    simpa [hm] using hk
  · intro h
    apply BitVec.eq_of_getLsbD_eq
    intro k hk
    cases hm : m.getLsbD k
    · simp [hm]
    · simp [h k hk hm]

/-- A slice is zero exactly when each of its bits is. -/
theorem extractLsb'_eq_zero_iff (x : Word) (lo n : Nat) :
    x.extractLsb' lo n = 0 ↔ ∀ k, k < n → x.getLsbD (lo + k) = false := by
  constructor
  · intro h k hk
    have hb := congrArg (fun y : BitVec n => y.getLsbD k) h
    simpa [hk] using hb
  · intro h
    apply BitVec.eq_of_getLsbD_eq
    intro k hk
    simp [hk, h k hk]

/-- A reserved range is clear exactly when each of its bits is. -/
theorem rangeClear_iff (r : Raw) (x : BitRange) (h : x.lo ≤ x.hi) :
    rangeClear r x = true ↔ ∀ k, x.lo ≤ k → k ≤ x.hi → (wordAt r x.w).getLsbD k = false := by
  simp only [rangeClear, beq_iff_eq]
  refine (extractLsb'_eq_zero_iff _ _ _).trans ⟨fun hz k h1 h2 => ?_, fun hz k hk => hz _ (by omega) (by omega)⟩
  have hk := hz (k - x.lo) (by omega)
  rwa [Nat.add_sub_cancel' h1] at hk

/-- The cycle bit replaced, every other bit kept. -/
theorem setCycle_eq (r : Raw) (b : BitVec 1) :
    setCycle r b = { r with w3 := r.w3.extractLsb' 1 31 ++ b } := by
  have hw : writeBits r.w3 0 0 b.toNat = r.w3.extractLsb' 1 31 ++ b := by
    apply BitVec.eq_of_getLsbD_eq
    intro k hk
    rw [getLsbD_writeBits _ _ _ _ _ (by decide) (by decide) hk, BitVec.getLsbD_append]
    by_cases h0 : k = 0
    · have hb : ∀ b : BitVec 1, b.toNat.testBit 0 = b.getLsbD 0 := by decide
      subst h0
      exact hb b
    · have h1 : 1 + (k - 1) = k := by omega
      have h2 : k - 1 < 31 := by omega
      simp [h0, hk, h1, h2]
  simp only [setCycle, hw]

end Sys2Proof.Machine
end

