-- ==== Sys2Proof/Tests/Slice0.lean ====
section
/-! SUPPORT. Tests. Expected results are the worked examples of the rules and the vectors of spec/95_test_vectors.md (S1 to
S3, V1 to V9, P1 to P5), or words put together by hand from the format tables of 30_encoding.md. The last part shows that
the hypotheses of the statements can be met. -/

open Sys2Proof Sys2Proof.Machine Sys2Proof.Statements

namespace Sys2Proof.Tests

/-- What one operation answers right after reset. -/
def answer (x : Input) : Option Response :=
  match step (State.reset.present x) with
  | .next s => s.response
  | _ => none

/-- The latch after one operation. -/
def latchAfter (s : State) (x : Input) : Option (Bool × Option (FatalCause × OpName)) :=
  match step (s.present x) with
  | .next s' => some (s'.fatal, s'.fatalCause)
  | _ => none

/-- The refusal of one input right after reset. -/
def refusal (x : Input) : Option Refusal :=
  match step (State.reset.present x) with
  | .refused ρ => some ρ
  | _ => none

/-- The state after the fault of V9 step 2. -/
def latched : State :=
  { State.reset with fatal := true, fatalCause := some (.widthViolation, .set .doorbellDbReason) }

/-- The TransferEvent of S1. -/
def s1 : Raw := ⟨0x00001000, 0x00000000, 0x01000040, 0x01038000⟩

/-- The CommandCompletion of P2. -/
def p2 : Raw := ⟨0x23456780, 0x00000001, 0x01ABCDEF, 0x05028401⟩

/-- The DeviceNotification of P5. -/
def p5 : Raw := ⟨0xEEFF1110, 0xAABBCCDD, 0x01000000, 0x09009800⟩

/-- The new record of a type. -/
def fresh (t : RecType) : Raw := newRecord ((Config.default.typeTable t).getD 0)

/-- A setter on a record typed `t`. -/
def setOn (t : RecType) (r : Raw) (f : Field) (v : BitVec f.operandWidth) : Input := .onType (.set (.field f v)) t r

/-- The configuration with MFINDEX_RESERVED = STRICT. -/
def strict : Config := { Config.default with mfindexReserved := .strict }

/-- A configuration that replaces both tables: it leaves 23 type names out and moves Link, and its completion codes are the
four names of the source, with one more that the default table does not hold. -/
def sparse : Config where
  typeTable
    | .normal => some 1
    | .link => some 25
    | t => if t.event?.isSome then Config.default.typeTable t else none
  ccTable := [(.success, 1), (.stallError, 6), (.shortPacket, 13), (.commandAborted, 25), (.other "VendorDefined", 192)]
  mfindexReserved := .strict

/-- What one operation answers in that instance right after reset. -/
def sparseAnswer (x : Input) : Option Response :=
  match stepWith sparse (State.reset.present x) with
  | .next s => s.response
  | _ => none

/-! Well-formedness: for each check, a term that it refuses (30_encoding.md R35 to R42). -/

theorem test_wf_wrong_tag : ∀ t ∈ RecType.all, (Instr.view t ⟨0, 0, 0, 0⟩).wellFormed Config.default = false := by decide

theorem test_wf_transferEvent :
    (Instr.view .transferEvent s1).wellFormed Config.default = true ∧
    ([0x01038002, 0x01038008, 0x01038200, 0x01238000, 0x01838000] : List Word).all
      (fun w3 => !(Instr.view .transferEvent { s1 with w3 := w3 }).wellFormed Config.default) = true := by decide

theorem test_wf_commandCompletion :
    (Instr.view .commandCompletion p2).wellFormed Config.default = true ∧
    (Instr.view .commandCompletion { p2 with w0 := 0x23456784 }).wellFormed Config.default = false ∧
    (Instr.view .commandCompletion { p2 with w3 := 0x05028421 }).wellFormed Config.default = false := by decide

theorem test_wf_portStatusChange :
    ((⟨0x05000000, 0, 0x01000000, 0x00008800⟩ : Raw) :: []).all
      (fun r => (Instr.view .portStatusChange r).wellFormed Config.default) = true ∧
    ([⟨0x05000001, 0, 0x01000000, 0x00008800⟩, ⟨0x05000000, 1, 0x01000000, 0x00008800⟩,
      ⟨0x05000000, 0, 0x01000001, 0x00008800⟩, ⟨0x05000000, 0, 0x01000000, 0x00018800⟩,
      ⟨0x05000000, 0, 0x01000000, 0x00008802⟩] : List Raw).all
      (fun r => !(Instr.view .portStatusChange r).wellFormed Config.default) = true := by decide

theorem test_wf_bandwidthRequest :
    (Instr.view .bandwidthRequest ⟨0, 0, 0x01000000, 0x07008C00⟩).wellFormed Config.default = true ∧
    ([⟨1, 0, 0x01000000, 0x07008C00⟩, ⟨0, 1, 0x01000000, 0x07008C00⟩, ⟨0, 0, 0x01000001, 0x07008C00⟩,
      ⟨0, 0, 0x01000000, 0x07018C00⟩, ⟨0, 0, 0x01000000, 0x07008E00⟩] : List Raw).all
      (fun r => !(Instr.view .bandwidthRequest r).wellFormed Config.default) = true := by decide

theorem test_wf_doorbell :
    (Instr.view .doorbell ⟨0x0000001F, 0, 0x01000000, 0xABCD9000⟩).wellFormed Config.default = true ∧
    ([⟨0x0000003F, 0, 0x01000000, 0x00009000⟩, ⟨0x1F, 1, 0x01000000, 0x00009000⟩, ⟨0x1F, 0, 0x01800000, 0x00009000⟩,
      ⟨0x1F, 0, 0x01000000, 0x00009002⟩] : List Raw).all
      (fun r => !(Instr.view .doorbell r).wellFormed Config.default) = true := by decide

theorem test_wf_hostController :
    (Instr.view .hostController ⟨0, 0, 0x1E000000, 0x00009400⟩).wellFormed Config.default = true ∧
    ([⟨1, 0, 0, 0x00009400⟩, ⟨0, 0x80000000, 0, 0x00009400⟩, ⟨0, 0, 1, 0x00009400⟩, ⟨0, 0, 0x01000000, 0x00019400⟩,
      ⟨0, 0, 0, 0x00009600⟩] : List Raw).all
      (fun r => !(Instr.view .hostController r).wellFormed Config.default) = true := by decide

theorem test_wf_deviceNotification :
    (Instr.view .deviceNotification p5).wellFormed Config.default = true ∧
    ([{ p5 with w0 := 0xEEFF1111 }, { p5 with w2 := 0x01000001 }, { p5 with w3 := 0x09019800 },
      { p5 with w3 := 0x09009802 }] : List Raw).all
      (fun r => !(Instr.view .deviceNotification r).wellFormed Config.default) = true := by decide

theorem test_wf_mfindexWrap :
    (Instr.view .mfindexWrap ⟨0x00000010, 0xFFFFFFFF, 0x01000000, 0xFF009C00⟩).wellFormed Config.default = true ∧
    ([⟨1, 0, 0x01000000, 0x00009C00⟩, ⟨0, 0, 0x01000001, 0x00009C00⟩, ⟨0, 0, 0x01000000, 0x00019C00⟩,
      ⟨0, 0, 0x01000000, 0x00009C02⟩] : List Raw).all
      (fun r => !(Instr.view .mfindexWrap r).wellFormed Config.default) = true ∧
    (Instr.view .mfindexWrap ⟨0, 0, 0x01000000, 0x00009C00⟩).wellFormed strict = true ∧
    ([⟨0x10, 0, 0, 0x00009C00⟩, ⟨0, 1, 0, 0x00009C00⟩, ⟨0, 0, 0, 0x01009C00⟩] : List Raw).all
      (fun r => !(Instr.view .mfindexWrap r).wellFormed strict) = true := by decide

/-! Decoding: for every constructor a word put together from its format (R31, R33, R35 to R43). -/

/-- The fields of a tag-only record whose words are `0x11111111`, `0x22222222`, `0x33333333` and, in `W[3]`, `0xABCD` over
the tag over `0x155` over 1. -/
def tagOnly (tag : BitVec 6) : TagOnly :=
  { unspecW0 := 0x11111111, unspecW1 := 0x22222222, unspecW2 := 0x33333333, unspec31_16 := 0xABCD, tag := tag,
    unspec9_1 := 0x155, c := 1 }

theorem test_decode_transfer_types :
    decode Config.default ⟨0x11111111, 0x22222222, 0x33333333, 0xABCD06AB⟩ = .ok (.normal (tagOnly 1)) ∧
    decode Config.default ⟨0x11111111, 0x22222222, 0x33333333, 0xABCD0AAB⟩ = .ok (.setupStage (tagOnly 2)) ∧
    decode Config.default ⟨0x11111111, 0x22222222, 0x33333333, 0xABCD0EAB⟩ = .ok (.dataStage (tagOnly 3)) ∧
    decode Config.default ⟨0x11111111, 0x22222222, 0x33333333, 0xABCD12AB⟩ = .ok (.statusStage (tagOnly 4)) ∧
    decode Config.default ⟨0x11111111, 0x22222222, 0x33333333, 0xABCD16AB⟩ = .ok (.isoch (tagOnly 5)) ∧
    decode Config.default ⟨0x11111111, 0x22222222, 0x33333333, 0xABCD1EAB⟩ = .ok (.eventData (tagOnly 7)) ∧
    decode Config.default ⟨0x11111111, 0x22222222, 0x33333333, 0xABCD22AB⟩ = .ok (.noopTransfer (tagOnly 8)) := by
  decide

theorem test_decode_command_types_a :
    decode Config.default ⟨0x11111111, 0x22222222, 0x33333333, 0xABCD26AB⟩ = .ok (.enableSlot (tagOnly 9)) ∧
    decode Config.default ⟨0x11111111, 0x22222222, 0x33333333, 0xABCD2AAB⟩ = .ok (.disableSlot (tagOnly 10)) ∧
    decode Config.default ⟨0x11111111, 0x22222222, 0x33333333, 0xABCD2EAB⟩ = .ok (.addressDevice (tagOnly 11)) ∧
    decode Config.default ⟨0x11111111, 0x22222222, 0x33333333, 0xABCD32AB⟩ = .ok (.configureEndpoint (tagOnly 12)) ∧
    decode Config.default ⟨0x11111111, 0x22222222, 0x33333333, 0xABCD36AB⟩ = .ok (.evaluateContext (tagOnly 13)) ∧
    decode Config.default ⟨0x11111111, 0x22222222, 0x33333333, 0xABCD3AAB⟩ = .ok (.resetEndpoint (tagOnly 14)) ∧
    decode Config.default ⟨0x11111111, 0x22222222, 0x33333333, 0xABCD3EAB⟩ = .ok (.stopEndpoint (tagOnly 15)) ∧
    decode Config.default ⟨0x11111111, 0x22222222, 0x33333333, 0xABCD42AB⟩ = .ok (.setTrDequeuePointer (tagOnly 16)) ∧
    decode Config.default ⟨0x11111111, 0x22222222, 0x33333333, 0xABCD46AB⟩ = .ok (.resetDevice (tagOnly 17)) := by
  decide

theorem test_decode_command_types_b :
    decode Config.default ⟨0x11111111, 0x22222222, 0x33333333, 0xABCD4AAB⟩ = .ok (.forceEvent (tagOnly 18)) ∧
    decode Config.default ⟨0x11111111, 0x22222222, 0x33333333, 0xABCD4EAB⟩ = .ok (.negotiateBandwidth (tagOnly 19)) ∧
    decode Config.default ⟨0x11111111, 0x22222222, 0x33333333, 0xABCD52AB⟩ = .ok (.setLatencyToleranceValue (tagOnly 20)) ∧
    decode Config.default ⟨0x11111111, 0x22222222, 0x33333333, 0xABCD56AB⟩ = .ok (.getPortBandwidth (tagOnly 21)) ∧
    decode Config.default ⟨0x11111111, 0x22222222, 0x33333333, 0xABCD5AAB⟩ = .ok (.forceHeader (tagOnly 22)) ∧
    decode Config.default ⟨0x11111111, 0x22222222, 0x33333333, 0xABCD5EAB⟩ = .ok (.noopCommand (tagOnly 23)) ∧
    decode Config.default ⟨0x11111111, 0x22222222, 0x33333333, 0xABCD62AB⟩ = .ok (.getExtendedProperty (tagOnly 24)) ∧
    decode Config.default ⟨0x11111111, 0x22222222, 0x33333333, 0xABCD66AB⟩ = .ok (.setExtendedProperty (tagOnly 25)) := by
  decide

theorem test_decode_link :
    decode Config.default ⟨0xFFFF0010, 0x0000000F, 0x33333333, 0xABCD1AAB⟩ =
      .ok (.link { ringSegmentPointer := 0x0000000FFFFF0010, unspecW2 := 0x33333333, unspec31_16 := 0xABCD, tag := 6,
                   unspec9_1 := 0x155, c := 1 }) := by decide

theorem test_decode_transferEvent :
    decode Config.default ⟨0x89ABCDEF, 0x01234567, 0xFF000001, 0x02118005⟩ =
      .ok (.transferEvent { trbPointer := 0x0123456789ABCDEF, completionCode := 0xFF, trbTransferLength := 1, slotId := 2,
                            rsvd23_21 := 0, endpointId := 17, tag := 32, rsvd9_3 := 0, eventData := 1, rsvd1 := 0,
                            c := 1 }) := by decide

theorem test_decode_commandCompletion :
    decode Config.default p2 =
      .ok (.commandCompletion { commandTrbPointer := 0x123456780, completionCode := 1,
                                commandCompletionParameter := 0xABCDEF, slotId := 5, vfId := 2, tag := 33, rsvd9_1 := 0,
                                c := 1 }) := by decide

theorem test_decode_portStatusChange :
    decode Config.default ⟨0x05000000, 0, 0x01000000, 0x00008801⟩ =
      .ok (.portStatusChange { portId := 5, rsvdW0 := 0, rsvdW1 := 0, completionCode := 1, rsvdW2 := 0, rsvd31_16 := 0,
                               tag := 34, rsvd9_1 := 0, c := 1 }) := by decide

theorem test_decode_bandwidthRequest :
    decode Config.default ⟨0, 0, 0x01000000, 0x07008C00⟩ =
      .ok (.bandwidthRequest { rsvdW0 := 0, rsvdW1 := 0, completionCode := 1, rsvdW2 := 0, slotId := 7, rsvd23_16 := 0,
                               tag := 35, rsvd9_1 := 0, c := 0 }) := by decide

theorem test_decode_doorbell :
    decode Config.default ⟨0x00000011, 0, 0x01000000, 0xABCD9000⟩ =
      .ok (.doorbell { rsvd31_5 := 0, dbReason := 17, rsvdW1 := 0, completionCode := 1, rsvdW2 := 0,
                       unnamed31_16 := 0xABCD, tag := 36, rsvd9_1 := 0, c := 0 }) := by decide

theorem test_decode_hostController :
    decode Config.default ⟨0, 0, 0x1E000000, 0x00009401⟩ =
      .ok (.hostController { rsvdW0 := 0, rsvdW1 := 0, completionCode := 30, rsvdW2 := 0, rsvd31_16 := 0, tag := 37,
                             rsvd9_1 := 0, c := 1 }) := by decide

theorem test_decode_deviceNotification :
    decode Config.default p5 =
      .ok (.deviceNotification { notificationData := 0xAABBCCDDEEFF11, notificationType := 1, rsvd3_0 := 0,
                                 completionCode := 1, rsvdW2 := 0, slotId := 9, rsvd23_16 := 0, tag := 38,
                                 rsvd9_1 := 0, c := 0 }) := by decide

theorem test_decode_mfindexWrap :
    decode Config.default ⟨0x12345670, 0xFFFFFFFE, 0x01000000, 0xFE009C00⟩ =
      .ok (.mfindexWrap { unnamedW1 := 0xFFFFFFFE, unnamed31_4 := 0x1234567, rsvd3_0 := 0, completionCode := 1,
                          rsvdW2 := 0, unnamed31_24 := 0xFE, rsvd23_16 := 0, tag := 39, rsvd9_1 := 0, c := 0 }) := by
  decide

/-- R45, R46: the tags at the ends of the unused ranges, and a dirty reserved bit. -/
theorem test_decode_refused :
    decode Config.default ⟨0, 0, 0, 0⟩ = .error (.unknownTag 0) ∧
    decode Config.default ⟨0, 0, 0, 0x00006800⟩ = .error (.unknownTag 26) ∧
    decode Config.default ⟨0, 0, 0, 0x00007C00⟩ = .error (.unknownTag 31) ∧
    decode Config.default ⟨0, 0, 0, 0x0000A000⟩ = .error (.unknownTag 40) ∧
    decode Config.default ⟨0, 0, 0, 0x0000FC00⟩ = .error (.unknownTag 63) ∧
    decode Config.default { s1 with w3 := 0x01038002 } = .error (.reservedBits .transferEvent) ∧
    decodeBytes Config.default [0, 0x10] = .error .tooShort := by decide

/-- The byte images of V3. -/
theorem test_byte_images :
    toBytes s1 = [0x00, 0x10, 0, 0, 0, 0, 0, 0, 0x40, 0, 0, 0x01, 0, 0x80, 0x03, 0x01] ∧
    toBytes p2 = [0x80, 0x67, 0x45, 0x23, 0x01, 0, 0, 0, 0xEF, 0xCD, 0xAB, 0x01, 0x01, 0x84, 0x02, 0x05] ∧
    fromBytes [0x10, 0x11, 0xFF, 0xEE, 0xDD, 0xCC, 0xBB, 0xAA, 0, 0, 0, 0x01, 0, 0x98, 0, 0x09] = some (p5, []) := by
  decide

/-- A table word is numbered with `W[3]` on top (00_scope.md R4). -/
theorem test_decodeTableWord :
    decodeTableWord 128 0x01038002010000400000000000001000 = none ∧
    decodeTableWord 128 0x01038000010000400000000000001000 = some (Instr.view .transferEvent s1) ∧
    (step (State.reset.withFetchWord 128 0x01038000010000400000000000001000) matches .next _) = true := by decide

/-! The operations, by their vectors. -/

/-- V1. -/
theorem test_new :
    answer (.onType .new .normal s1) = some (.value (.typed .normal ⟨0, 0, 0, 0x00000400⟩)) ∧
    answer (.onType .new .link s1) = some (.value (.typed .link ⟨0, 0, 0, 0x00001800⟩)) ∧
    answer (.onType .new .setExtendedProperty s1) = some (.value (.typed .setExtendedProperty ⟨0, 0, 0, 0x00006400⟩)) ∧
    answer (.onType .new .transferEvent s1) = some (.value (.typed .transferEvent ⟨0, 0, 0, 0x00008000⟩)) ∧
    answer (.onType .new .mfindexWrap s1) = some (.value (.typed .mfindexWrap ⟨0, 0, 0, 0x00009C00⟩)) := by decide

/-- V2. -/
theorem test_cycle_bit :
    answer (.onType .getC .transferEvent s1) = some (.value (.bit 0)) ∧
    answer (setCycleOn .transferEvent s1) = some (.value (.typed .transferEvent { s1 with w3 := 0x01038001 })) ∧
    answer (clearCycleOn .transferEvent { s1 with w3 := 0x01038001 }) = some (.value (.typed .transferEvent s1)) ∧
    answer (toggleCycleOn .link ⟨0, 0, 0, 0x00001800⟩) = some (.value (.typed .link ⟨0, 0, 0, 0x00001801⟩)) ∧
    answer (.onAllowed (.setC 1) .hostController ⟨0, 0, 0x01000000, 0x00009400⟩) =
      some (.value (.allowed .hostController ⟨0, 0, 0x01000000, 0x00009401⟩)) ∧
    answer (.onAllowed .getC .hostController ⟨0, 0, 0x01000000, 0x00009401⟩) = some (.value (.bit 1)) ∧
    answer (.onAllowed .intoRaw .hostController ⟨0, 0, 0x01000000, 0x00009401⟩) =
      some (.value (.raw ⟨0, 0, 0x01000000, 0x00009401⟩)) := by decide

/-- V3. -/
theorem test_raw_conversion :
    answer (.onType .fromRaw .hostController ⟨1, 2, 3, 4⟩) = some (.value (.typed .hostController ⟨1, 2, 3, 4⟩)) ∧
    answer (.onType .intoRaw .transferEvent ⟨1, 2, 3, 4⟩) = some (.value (.raw ⟨1, 2, 3, 4⟩)) ∧
    answer (.onType .tryV .hostController ⟨1, 2, 3, 4⟩) = some (.err (.raw ⟨1, 2, 3, 4⟩)) ∧
    answer (.onType (.get .hostControllerCompletionCode) .hostController ⟨1, 2, 3, 4⟩) = some (.ok (.code .invalid)) := by
  decide

/-- V4. -/
theorem test_type_of :
    answer (.onRaw .typeOf ⟨0, 0, 0, 0⟩) = some (.err (.tag 0)) ∧
    answer (.onRaw .typeOf ⟨0, 0, 0, 0x00006400⟩) = some (.ok (.typeName .setExtendedProperty)) ∧
    answer (.onRaw .typeOf ⟨0, 0, 0, 0x00006800⟩) = some (.err (.tag 26)) ∧
    answer (.onRaw .typeOf ⟨0, 0, 0, 0x00007C00⟩) = some (.err (.tag 31)) ∧
    answer (.onRaw .typeOf ⟨0, 0, 0, 0x00009C00⟩) = some (.ok (.typeName .mfindexWrap)) ∧
    answer (.onRaw .typeOf ⟨0, 0, 0, 0x0000A000⟩) = some (.err (.tag 40)) ∧
    answer (.onRaw .typeOf { s1 with w3 := 0x01038002 }) = some (.ok (.typeName .transferEvent)) := by decide

/-- V5: the rows that classify. -/
theorem test_classify_ok :
    ([(.transferEvent, s1), (.transferEvent, { s1 with w3 := 0x81038005 }),
      (.transferEvent, ⟨0xFFFFFFFF, 0xFFFFFFFF, 0xFFFFFFFF, 0xFF1F8005⟩), (.commandCompletion, p2),
      (.portStatusChange, ⟨0x05000000, 0, 0x01000000, 0x00008800⟩),
      (.bandwidthRequest, ⟨0, 0, 0x01000000, 0x07008C00⟩), (.doorbell, ⟨0x0000001F, 0, 0x01000000, 0xABCD9000⟩),
      (.hostController, ⟨0, 0, 0xFF000000, 0x00009400⟩), (.deviceNotification, p5),
      (.mfindexWrap, ⟨0x00000010, 0xFFFFFFFF, 0x01000000, 0xFF009C00⟩)] : List (EventVariant × Raw)).all
      (fun x => answer (.onRaw .classify x.2) == some (.ok (.allowed x.1 x.2))) = true := by decide

/-- V5: rows that fail, with the record handed back. -/
theorem test_classify_err :
    ([⟨0, 0, 0, 0⟩, ⟨0xFFFFFFFF, 0xFFFFFFFF, 0xFFFFFFFF, 0xFFFFFFFF⟩, { s1 with w3 := 0x01038002 },
      { s1 with w3 := 0x01038100 }, { s1 with w3 := 0x01838000 }, { p2 with w0 := 0x23456784 },
      { p2 with w3 := 0x05028421 }, ⟨0x05000000, 1, 0x01000000, 0x00008800⟩, ⟨0, 0, 0x01000000, 0x07018C00⟩,
      ⟨0x0000003F, 0, 0x01000000, 0x00009000⟩, ⟨0, 0, 0x01000000, 0x00019400⟩, { p5 with w0 := 0xEEFF1111 },
      ⟨0, 0, 0x01000000, 0x00019C00⟩, ⟨0xFFFF0010, 0x0000000F, 0, 0x00001801⟩] : List Raw).all
      (fun w => answer (.onRaw .classify w) == some (.err (.raw w))) = true ∧
    classify strict ⟨0x00000010, 0xFFFFFFFF, 0x01000000, 0xFF009C00⟩ =
      .error ⟨0x00000010, 0xFFFFFFFF, 0x01000000, 0xFF009C00⟩ := by decide

/-- V5, P2, P5: single validators, and wrapping. -/
theorem test_try_and_wrap :
    answer (.onType .tryV .transferEvent s1) = some (.ok (.typed .transferEvent s1)) ∧
    answer (.onType .tryV .commandCompletion { p2 with w0 := 0x23456784 }) =
      some (.err (.raw { p2 with w0 := 0x23456784 })) ∧
    answer (.onType .tryV .mfindexWrap p5) = some (.err (.raw p5)) ∧
    answer (.onType .wrap .doorbell (fresh .doorbell)) =
      some (.value (.allowed .doorbell ⟨0, 0, 0, 0x00009000⟩)) ∧
    answer (reclassifyOf p5) = some (.ok (.allowed .deviceNotification p5)) := by decide

/-- S1 step by step: each setter on the record the one before gave. -/
theorem test_s1_setters :
    answer (setOn .transferEvent (fresh .transferEvent) .transferEventTrbPointer 0x1000) =
      some (.value (.typed .transferEvent ⟨0x00001000, 0, 0, 0x00008000⟩)) ∧
    answer (setOn .transferEvent ⟨0x00001000, 0, 0, 0x00008000⟩ .transferEventTrbTransferLength 64) =
      some (.value (.typed .transferEvent ⟨0x00001000, 0, 0x40, 0x00008000⟩)) ∧
    answer (setOn .transferEvent ⟨0x00001000, 0, 0x40, 0x00008000⟩ .transferEventEndpointId 3) =
      some (.value (.typed .transferEvent ⟨0x00001000, 0, 0x40, 0x00038000⟩)) ∧
    answer (setOn .transferEvent ⟨0x00001000, 0, 0x40, 0x00038000⟩ .transferEventSlotId 1) =
      some (.value (.typed .transferEvent ⟨0x00001000, 0, 0x40, 0x01038000⟩)) ∧
    answer (setOn .transferEvent ⟨0x00001000, 0, 0x40, 0x01038000⟩ .transferEventCompletionCode 1) =
      some (.value (.typed .transferEvent s1)) ∧
    answer (setOn .transferEvent s1 .transferEventEventData 1) =
      some (.value (.typed .transferEvent { s1 with w3 := 0x01038004 })) := by decide

/-- S1 and V5: the getters of TransferEvent. -/
theorem test_transferEvent_getters :
    answer (.onType (.get .transferEventTrbPointer) .transferEvent s1) = some (.value (.number 0x1000)) ∧
    answer (.onType (.get .transferEventTrbTransferLength) .transferEvent s1) = some (.value (.number 64)) ∧
    answer (.onType (.get .transferEventEndpointId) .transferEvent s1) = some (.value (.number 3)) ∧
    answer (.onType (.get .transferEventSlotId) .transferEvent s1) = some (.value (.number 1)) ∧
    answer (.onType (.get .transferEventCompletionCode) .transferEvent s1) = some (.ok (.code .success)) ∧
    answer (.onType (.get .transferEventEventData) .transferEvent { s1 with w3 := 0x01038004 }) =
      some (.value (.bit 1)) := by decide

/-- P2: the setters of CommandCompletion. -/
theorem test_commandCompletion_setters :
    answer (setOn .commandCompletion (fresh .commandCompletion) .commandCompletionCommandTrbPointer 0x123456780) =
      some (.value (.typed .commandCompletion ⟨0x23456780, 1, 0, 0x00008400⟩)) ∧
    answer (setOn .commandCompletion ⟨0, 0, 0x01000000, 0x00008400⟩ .commandCompletionCommandCompletionParameter 0xABCDEF) =
      some (.value (.typed .commandCompletion ⟨0, 0, 0x01ABCDEF, 0x00008400⟩)) ∧
    answer (setOn .commandCompletion (fresh .commandCompletion) .commandCompletionVfId 255) =
      some (.value (.typed .commandCompletion ⟨0, 0, 0, 0x00FF8400⟩)) ∧
    answer (setOn .commandCompletion ⟨0, 0, 0, 0x00028400⟩ .commandCompletionSlotId 5) =
      some (.value (.typed .commandCompletion ⟨0, 0, 0, 0x05028400⟩)) ∧
    answer (setOn .commandCompletion ⟨0, 0, 0x00ABCDEF, 0x00008400⟩ .commandCompletionCompletionCode 1) =
      some (.value (.typed .commandCompletion ⟨0, 0, 0x01ABCDEF, 0x00008400⟩)) := by decide

/-- V6: the getters of CommandCompletion, on a record with a dirty pointer too. -/
theorem test_commandCompletion_getters :
    answer (.onType (.get .commandCompletionCommandTrbPointer) .commandCompletion { p2 with w0 := 0x23456784 }) =
      some (.value (.number 0x123456784)) ∧
    answer (.onType (.get .commandCompletionCommandCompletionParameter) .commandCompletion p2) =
      some (.value (.number 0xABCDEF)) ∧
    answer (.onType (.get .commandCompletionVfId) .commandCompletion p2) = some (.value (.number 2)) ∧
    answer (.onType (.get .commandCompletionSlotId) .commandCompletion p2) = some (.value (.number 5)) ∧
    answer (.onType (.get .commandCompletionCompletionCode) .commandCompletion p2) = some (.ok (.code .success)) := by
  decide

/-- V6 and the examples of R112 to R125: the small variants. -/
theorem test_small_variants :
    answer (setOn .portStatusChange (fresh .portStatusChange) .portStatusChangePortId 255) =
      some (.value (.typed .portStatusChange ⟨0xFF000000, 0, 0, 0x00008800⟩)) ∧
    answer (.onType (.get .portStatusChangePortId) .portStatusChange ⟨0x05000000, 0, 0, 0x00008800⟩) =
      some (.value (.number 5)) ∧
    answer (setOn .bandwidthRequest (fresh .bandwidthRequest) .bandwidthRequestSlotId 255) =
      some (.value (.typed .bandwidthRequest ⟨0, 0, 0, 0xFF008C00⟩)) ∧
    answer (.onType (.get .bandwidthRequestSlotId) .bandwidthRequest ⟨0, 0, 0, 0x07008C00⟩) =
      some (.value (.number 7)) ∧
    answer (setOn .doorbell (fresh .doorbell) .doorbellDbReason 31) =
      some (.value (.typed .doorbell ⟨0x0000001F, 0, 0, 0x00009000⟩)) ∧
    answer (.onType (.get .doorbellDbReason) .doorbell ⟨0x0000001F, 0, 0x01000000, 0xABCD9000⟩) =
      some (.value (.number 31)) ∧
    answer (setOn .hostController (fresh .hostController) .hostControllerCompletionCode 30) =
      some (.value (.typed .hostController ⟨0, 0, 0x1E000000, 0x00009400⟩)) ∧
    answer (.onType (.get .hostControllerCompletionCode) .hostController ⟨0, 0, 0x1E000000, 0x00009400⟩) =
      some (.err (.byte 30)) ∧
    answer (setOn .mfindexWrap (fresh .mfindexWrap) .mfindexWrapCompletionCode 1) =
      some (.value (.typed .mfindexWrap ⟨0, 0, 0x01000000, 0x00009C00⟩)) := by decide

/-- V6 and P5: DeviceNotification. -/
theorem test_deviceNotification :
    answer (setOn .deviceNotification ⟨0x00000010, 0, 0, 0x00009800⟩ .deviceNotificationNotificationData 0xAABBCCDDEEFF11) =
      some (.value (.typed .deviceNotification ⟨0xEEFF1110, 0xAABBCCDD, 0, 0x00009800⟩)) ∧
    answer (setOn .deviceNotification ⟨0x00000010, 0, 0x01000000, 0x09009800⟩ .deviceNotificationNotificationData
        0xFFFFFFFFFFFFFF) =
      some (.value (.typed .deviceNotification ⟨0xFFFFFF10, 0xFFFFFFFF, 0x01000000, 0x09009800⟩)) ∧
    answer (setOn .deviceNotification p5 .deviceNotificationNotificationType 15) =
      some (.value (.typed .deviceNotification { p5 with w0 := 0xEEFF11F0 })) ∧
    answer (.onType (.get .deviceNotificationNotificationData) .deviceNotification p5) =
      some (.value (.number 0xAABBCCDDEEFF11)) ∧
    answer (.onType (.get .deviceNotificationNotificationType) .deviceNotification p5) = some (.value (.number 1)) ∧
    answer (.onType (.get .deviceNotificationSlotId) .deviceNotification p5) = some (.value (.number 9)) := by decide

/-- S2 and V7. -/
theorem test_cc_decode :
    ([(0, .invalid), (1, .success), (6, .stallError), (13, .shortPacket), (25, .commandAborted),
      (29, .maxExitLatencyTooLargeError), (31, .isochBufferOverrun), (36, .splitTransactionError)] :
        List (BitVec 8 × CompletionCode)).all
      (fun x => answer (.ccDecode x.1) == some (.ok (.code x.2))) = true ∧
    ([30, 37, 128, 255] : List (BitVec 8)).all (fun n => answer (.ccDecode n) == some (.err (.byte n))) = true := by
  decide

/-- S3 and V8: the Link pointer, admitted and fatal. -/
theorem test_link_pointer :
    answer (setOn .link (fresh .link) .linkRingSegmentPointer 0x0000000FFFFF0010) =
      some (.value (.typed .link ⟨0xFFFF0010, 0x0000000F, 0, 0x00001800⟩)) ∧
    answer (setOn .link (fresh .link) .linkRingSegmentPointer 0xFFFFFFFFFFFFFFF0) =
      some (.value (.typed .link ⟨0xFFFFFFF0, 0xFFFFFFFF, 0, 0x00001800⟩)) ∧
    answer (.onType (.get .linkRingSegmentPointer) .link ⟨0xFFFF0010, 0x0000000F, 0, 0x00001800⟩) =
      some (.value (.number 0x0000000FFFFF0010)) ∧
    answer (setOn .link (fresh .link) .linkRingSegmentPointer 0x1008) = some .fault ∧
    latchAfter State.reset (setOn .link (fresh .link) .linkRingSegmentPointer 0x1008) =
      some (true, some (.alignmentViolation, .set .linkRingSegmentPointer)) := by decide

/-- V6: the smallest refused value of each field. -/
theorem test_smallest_refused :
    ([.transferEventTrbTransferLength, .commandCompletionCommandCompletionParameter] : List Field).all
      (fun f => latchAfter State.reset (setOn f.owner (fresh f.owner) f (BitVec.ofNat _ 0x1000000)) ==
        some (true, some (.widthViolation, .set f))) = true ∧
    ([.transferEventEndpointId, .doorbellDbReason] : List Field).all
      (fun f => latchAfter State.reset (setOn f.owner (fresh f.owner) f (BitVec.ofNat _ 32)) ==
        some (true, some (.widthViolation, .set f))) = true ∧
    ([.transferEventSlotId, .commandCompletionSlotId, .commandCompletionVfId, .portStatusChangePortId,
      .hostControllerCompletionCode] : List Field).all
      (fun f => latchAfter State.reset (setOn f.owner (fresh f.owner) f (BitVec.ofNat _ 256)) ==
        some (true, some (.widthViolation, .set f))) = true ∧
    latchAfter State.reset (setOn .deviceNotification p5 .deviceNotificationNotificationType 16) =
      some (true, some (.widthViolation, .set .deviceNotificationNotificationType)) ∧
    latchAfter State.reset (setOn .deviceNotification p5 .deviceNotificationNotificationData 0x100000000000000) =
      some (true, some (.widthViolation, .set .deviceNotificationNotificationData)) := by decide

/-- V9: the gate keeps the first cause, and only reset clears the latch. -/
theorem test_latch :
    step (latched.present (.onType .getC .doorbell (fresh .doorbell))) = .next (answered latched .fault) ∧
    step (latched.present (.ccDecode 1)) = .next (answered latched .fault) ∧
    step (latched.present (setOn .link (fresh .link) .linkRingSegmentPointer 0x1008)) = .next (answered latched .fault) ∧
    step (latched.present .reset) = .next State.reset ∧
    latchAfter State.reset (.onRaw .classify ⟨0, 0, 0, 0⟩) = some (false, none) := by
  refine ⟨rfl, rfl, rfl, rfl, by decide⟩

/-- R33, R45, R50, R55, R141 under a replaced table: the tag NEW stamps, the tags and bytes that name nothing, and a name
the default table does not hold. -/
theorem test_replaced_tables :
    sparseAnswer (.onType .new .link s1) = some (.value (.typed .link ⟨0, 0, 0, 0x00006400⟩)) ∧
    sparseAnswer (.onRaw .typeOf ⟨0, 0, 0, 0x00006400⟩) = some (.ok (.typeName .link)) ∧
    sparseAnswer (.onRaw .typeOf ⟨0, 0, 0, 0x00001800⟩) = some (.err (.tag 6)) ∧
    sparseAnswer (.onRaw .classify s1) = some (.ok (.allowed .transferEvent s1)) ∧
    sparseAnswer (.ccDecode 192) = some (.ok (.code (.other "VendorDefined"))) ∧
    sparseAnswer (.ccDecode 0) = some (.err (.byte 0)) ∧
    sparseAnswer (.onType .tryV .mfindexWrap ⟨0x10, 0, 0, 0x00009C00⟩) =
      some (.err (.raw ⟨0x10, 0, 0, 0x00009C00⟩)) := by decide

/-- R50: a type name the table leaves out is no type of that instance. -/
theorem test_type_left_out :
    (match stepWith sparse (State.reset.present (.onType .getC .setupStage s1)) with
     | .refused ρ => some ρ
     | _ => none) = some (.noSuchType .getC .setupStage) := by decide

/-- R88, R136, R156: what is no operation of the block. -/
theorem test_refusals :
    refusal (.onType .tryV .link (fresh .link)) = some (.notSpecified (.tryV .link)) ∧
    refusal (.onType .wrap .normal (fresh .normal)) = some (.notSpecified (.wrap .normal)) ∧
    refusal (.onType (.get .transferEventSlotId) .commandCompletion p2) =
      some (.illTyped (.get .transferEventSlotId) .commandCompletion) := by decide

/-! The hypotheses of the statements can be met: for each statement with hypotheses, a state and operands that meet them,
at the ends of a range where it has one. `Config.default_admissible` is the witness of admissibility. -/

theorem witness_DecodeEncodeRoundTrip : Config.default.Admissible ∧
    (RecType.all.all fun t => (Instr.view t (fresh t)).wellFormed Config.default) = true ∧
    (Instr.view .transferEvent s1).wellFormed Config.default = true :=
  ⟨Config.default_admissible, by decide, by decide⟩

theorem witness_EncodeOfDecodedIsIdentity :
    decode Config.default p5 = .ok (Instr.view .deviceNotification p5) := by decide

theorem witness_ByteImageRoundTrip : (toBytes s1).length = 16 ∧
    (toBytes s1)[11]? = some 0x01 ∧ (toBytes s1)[12]? = some 0x00 ∧ (toBytes s1)[13]? = some 0x80 := by decide

theorem witness_UnknownTagIsRecoverable : State.reset.fatal = false ∧
    ([0, 26, 31, 40, 63] : List (BitVec 6)).all (fun t => typeOfTag Config.default t == none) = true ∧
    ([1, 25, 32, 39] : List (BitVec 6)).all (fun t => (typeOfTag Config.default t).isSome) = true ∧
    tagOf ⟨0, 0, 0, 0x0000A000⟩ = 40 := by decide

theorem witness_NonEventOrDirtyRecordIsHandedBack : State.reset.fatal = false ∧
    (Config.default.typeTable .setExtendedProperty = some (tagOf (fresh .setExtendedProperty)) ∧
      RecType.setExtendedProperty.event? = none) ∧
    (Config.default.typeTable .transferEvent = some (tagOf { s1 with w3 := 0x01038002 }) ∧
      wordAt { s1 with w3 := 0x01038002 } 3 &&& wordAt (resMask Config.default .transferEvent) 3 ≠ 0) := by decide

theorem witness_FieldsDoNotOverlap :
    (Field.transferEventSlotId.owner = EventVariant.transferEvent.toType ∧
      placeHasBit (fieldPlace .transferEventSlotId) 3 24 = true ∧ placeHasBit (fieldPlace .transferEventSlotId) 3 31 = true ∧
      placeHasBit (fieldPlace .transferEventSlotId) 3 23 = false ∧
      reservedHasBit Config.default .transferEvent 3 23 = true) ∧
    (placeHasBit (fieldPlace .commandCompletionCommandTrbPointer) 0 3 = true ∧
      reservedHasBit Config.default .commandCompletion 0 3 = true ∧
      reservedHasBit Config.default .commandCompletion 0 0 = true ∧
      reservedHasBit Config.default .commandCompletion 0 4 = false) ∧
    Field.transferEventEndpointId ≠ .transferEventSlotId := by decide

theorem witness_ValidatorByTableAndByMasks : valid Config.default .transferEvent s1 = true ∧
    valid Config.default .transferEvent { s1 with w3 := 0x01038008 } = false ∧
    valid strict .mfindexWrap (fresh .mfindexWrap) = true := by decide

theorem witness_TryFirstFourVariants : State.reset.fatal = false ∧
    ((encode (.transferEvent (TransferEventRec.ofRaw s1))).w3.extractLsb' 10 6 = 32 ∧
      (encode (.transferEvent (TransferEventRec.ofRaw s1))).w3 &&& 0x00E003FA = 0) ∧
    (encode (.transferEvent (TransferEventRec.ofRaw p2))).w3.extractLsb' 10 6 ≠ 32 := by decide

theorem witness_TryLastFourVariants : State.reset.fatal = false ∧
    ((encode (.doorbell (DoorbellRec.ofRaw ⟨0x1F, 0, 0x01000000, 0xABCD9000⟩))).w3.extractLsb' 10 6 = 36 ∧
      (encode (.doorbell (DoorbellRec.ofRaw ⟨0x1F, 0, 0x01000000, 0xABCD9000⟩))).w0 &&& 0xFFFFFFE0 = 0 ∧
      (encode (.doorbell (DoorbellRec.ofRaw ⟨0x3F, 0, 0x01000000, 0x00009000⟩))).w0 &&& 0xFFFFFFE0 ≠ 0) ∧
    ((encode (.hostController (HostControllerRec.ofRaw ⟨0, 0, 0x1E000000, 0x00009400⟩))).w3.extractLsb' 10 6 = 37 ∧
      (encode (.hostController (HostControllerRec.ofRaw ⟨0, 0, 0x1E000000, 0x00009400⟩))).w3 &&& 0xFFFF03FE = 0) ∧
    ((encode (.deviceNotification (DeviceNotificationRec.ofRaw p5))).w3.extractLsb' 10 6 = 38 ∧
      (encode (.deviceNotification (DeviceNotificationRec.ofRaw p5))).w0 &&& 0x0000000F = 0) ∧
    ((encode (.mfindexWrap (MfindexWrapRec.ofRaw ⟨0x10, 0xFFFFFFFF, 0x01000000, 0xFF009C00⟩))).w3.extractLsb' 10 6 = 39 ∧
      (encode (.mfindexWrap (MfindexWrapRec.ofRaw ⟨0x10, 0xFFFFFFFF, 0x01000000, 0xFF009C00⟩))).w3 &&& 0x00FF03FE = 0 ∧
      (encode (.mfindexWrap (MfindexWrapRec.ofRaw ⟨0x10, 0xFFFFFFFF, 0x01000000, 0xFF009C00⟩))).w0 ≠ 0) ∧
    (strict.mfindexReserved = .strict ∧ strict.typeTable .mfindexWrap = some 39) := by decide

theorem witness_ClassifyAnswers : State.reset.fatal = false ∧ valid Config.default .deviceNotification p5 = true ∧
    (eventOrder.all fun v => !valid Config.default v ⟨0, 0, 0, 0x0000A000⟩) = true := by decide

theorem witness_ClassifyIsDecodeToAnEvent : Config.default.Admissible ∧
    classify Config.default s1 = .ok (.transferEvent, s1) ∧
    classify Config.default (fresh .link) = .error (fresh .link) ∧
    decode Config.default (fresh .link) = .ok (Instr.view .link (fresh .link)) :=
  ⟨Config.default_admissible, by decide, by decide, by decide⟩

theorem witness_EventTagsAreDisjoint : Config.default.Admissible ∧
    Config.default.typeTable EventVariant.doorbell.toType = some 36 ∧
    EventVariant.doorbell ≠ .hostController ∧ ∀ v : EventVariant, v ∈ eventOrder.reverse :=
  ⟨Config.default_admissible, rfl, by decide, fun v => by cases v <;> decide⟩

/-- The setters of S1 and the cycle bit, from a new record. -/
def s1Calls : List SetterCall :=
  [.field .transferEventTrbPointer 0x1000, .field .transferEventTrbTransferLength 64, .field .transferEventEndpointId 3,
   .field .transferEventSlotId 1, .field .transferEventCompletionCode 1, .cycle 1]

theorem witness_ConstructedRecordsClassify : Config.default.Admissible ∧ settersOf .transferEvent s1Calls ∧
    Config.default.typeTable EventVariant.transferEvent.toType = some 32 ∧
    chain s1Calls (newRecord 32) = .ok { s1 with w3 := 0x01038001 } ∧
    valid Config.default .transferEvent s1 = true ∧
    SetterCall.apply (.field .transferEventSlotId 255) s1 = .ok { s1 with w3 := 0xFF038000 } :=
  ⟨Config.default_admissible, by unfold settersOf; decide, rfl, by decide, by decide, by decide⟩

theorem witness_ReservedBitRejection : Config.default.Admissible ∧ valid Config.default .transferEvent s1 = true ∧
    (reservedHasBit Config.default .transferEvent 3 1 = true ∧ reservedHasBit Config.default .transferEvent 3 9 = true ∧
      reservedHasBit Config.default .transferEvent 3 21 = true ∧
      reservedHasBit Config.default .transferEvent 3 23 = true) ∧
    Config.default.mfindexReserved = .literal ∧ strict.mfindexReserved = .strict :=
  ⟨Config.default_admissible, by decide, by decide, rfl, rfl⟩

theorem witness_NonEventValidatorNotSpecified :
    (Instr.view .link (fresh .link)).type.event? = none ∧ (Instr.view .normal (fresh .normal)).type.event? = none := by
  decide

theorem witness_FieldOfAnotherTypeRefused :
    Field.transferEventSlotId.owner ≠ (Instr.view .commandCompletion p2).type ∧
    Field.linkRingSegmentPointer.owner ≠ (Instr.view .normal (fresh .normal)).type := by decide

/-- The statements on one operation of any record ask for a state whose latch is clear, and no more. -/
theorem witness_NewStampsTheTag : State.reset.fatal = false ∧
    Config.default.typeTable EventVariant.mfindexWrap.toType = some 39 ∧ fieldKind .doorbellCompletionCode = .code := by
  decide

theorem witness_CycleBitAccess : (answered latched .fault).takeReset.fatal = false := rfl

theorem witness_RawConversionIsReinterpretation : State.reset.fatal = false := rfl

theorem witness_PointerAndDataGetters : State.reset.fatal = false := rfl

theorem witness_TransferEventGetters : State.reset.fatal = false := rfl

theorem witness_CommandCompletionGetters : State.reset.fatal = false := rfl

theorem witness_PortBandwidthDoorbellGetters : State.reset.fatal = false := rfl

theorem witness_DeviceNotificationGetters : State.reset.fatal = false := rfl

theorem witness_CompletionCodeGetters : State.reset.fatal = false := rfl

theorem witness_TypeOfAnswers : State.reset.fatal = false ∧
    Config.default.typeTable .mfindexWrap = some ((fresh .mfindexWrap).w3.extractLsb' 10 6) ∧
    (RecType.all.all fun t => Config.default.typeTable t != some ((0x0000A000 : Word).extractLsb' 10 6)) = true := by decide

theorem witness_GenericFieldRead : (24 ≤ 31 ∧ 31 < 32) ∧ (0 ≤ 0 ∧ 0 < 32) := by decide

theorem witness_GenericFieldWrite : (24 ≤ 31 ∧ 31 < 32) ∧ (255 < 2 ^ (31 - 24 + 1) ∧ 2 ^ (31 - 24 + 1) ≤ 256) ∧
    (2 ^ 64 ≤ 18446744073709551616) ∧ (0x1008 < 2 ^ 64 ∧ 0x1008 % 16 ≠ 0) ∧ (0x1010 < 2 ^ 64 ∧ 0x1010 % 16 = 0) := by
  decide

theorem witness_SettersChain :
    (SetterCall.appliesTo .doorbell (.field .doorbellDbReason 31) = true ∧
      SetterCall.apply (.field .doorbellDbReason 31) (fresh .doorbell) = .ok ⟨0x1F, 0, 0, 0x00009000⟩) ∧
    chain [.field .doorbellDbReason 31] (fresh .doorbell) = .ok ⟨0x1F, 0, 0, 0x00009000⟩ ∧
    chain [.field .doorbellDbReason 32] (fresh .doorbell) = .error .widthViolation := by decide

theorem witness_SetterFrameLaw :
    writeField .commandCompletionCommandTrbPointer { p2 with w0 := 0x23456784 } 0x1010 =
      .ok { p2 with w0 := 0x1010, w1 := 0 } ∧
    writeField .transferEventSlotId s1 255 = .ok { s1 with w3 := 0xFF038000 } ∧
    fieldHasBit .transferEventSlotId 3 23 = false ∧ fieldHasBit .transferEventSlotId 3 24 = true ∧
    Field.transferEventSlotId.owner = EventVariant.transferEvent.toType := by decide

theorem witness_ReadAfterWrite :
    (writeField .transferEventSlotId s1 255 = .ok { s1 with w3 := 0xFF038000 } ∧
      writeField .transferEventEndpointId s1 31 = .ok { s1 with w3 := 0x011F8000 }) ∧
    (Field.transferEventEndpointId.owner = Field.transferEventSlotId.owner ∧
      Field.transferEventEndpointId ≠ .transferEventSlotId) ∧
    (p2.w0.extractLsb' 0 4 = 0 ∧ (0x23456784 : Word).extractLsb' 0 4 ≠ 0) ∧
    fieldKind .transferEventCompletionCode = .code := by decide

theorem witness_ObservationalEquality : Config.default.Admissible ∧
    (valid Config.default .deviceNotification p5 = true ∧ EventVariant.deviceNotification ≠ .doorbell ∧
      EventVariant.deviceNotification ≠ .mfindexWrap) ∧
    strict.mfindexReserved = .strict ∧ Config.default.mfindexReserved = .literal ∧
    fieldResponse Config.default .doorbellDbReason ⟨0x1F, 0, 0, 0xABCD9000⟩ =
      fieldResponse Config.default .doorbellDbReason ⟨0x1F, 0, 0, 0x00009000⟩ :=
  ⟨Config.default_admissible, by decide, rfl, rfl, by decide⟩

/-- Both sides of a width contract of `n` bits at its ends: the operands `2^n - 1` and `2^n`. -/
def widthEnds (n : Nat) : Bool :=
  decide ((BitVec.ofNat 64 (2 ^ n - 1)).toNat < 2 ^ n) && decide (2 ^ n ≤ (BitVec.ofNat 64 (2 ^ n)).toNat)

theorem witness_TransferEventSetters : State.reset.fatal = false ∧ [24, 5, 8].all widthEnds = true := by decide

theorem witness_CommandCompletionSetters : State.reset.fatal = false ∧ [24, 8].all widthEnds = true ∧
    (0x1010 : BitVec 64).toNat % 16 = 0 ∧ (0x1008 : BitVec 64).toNat % 16 ≠ 0 := by decide

theorem witness_PortBandwidthDoorbellSetters : State.reset.fatal = false ∧ [8, 5].all widthEnds = true := by decide

theorem witness_DeviceNotificationSetters : State.reset.fatal = false ∧ [4, 56, 8].all widthEnds = true := by decide

theorem witness_CompletionCodeSetters : State.reset.fatal = false ∧ [8].all widthEnds = true := by decide

theorem witness_LinkPointer : State.reset.fatal = false ∧
    (0xFFFFFFFFFFFFFFF0 : BitVec 64).toNat % 16 = 0 ∧ (0x100F : BitVec 64).toNat % 16 ≠ 0 := by decide

/-- Admissibility is met by the default tables and by tables that share neither number nor name beyond the source's. -/
theorem sparse_admissible : sparse.Admissible where
  typeInjective a b n ha hb := by
    have h : ∀ t ∈ RecType.all, (sparse.typeTable t).all (fun k => typeOfTag sparse k == some t) = true := by decide
    have ha' := h a (RecType.mem_all a)
    have hb' := h b (RecType.mem_all b)
    simp only [ha, hb, Option.all_some, beq_iff_eq] at ha' hb'
    exact Option.some.inj (ha'.symm.trans hb')
  commandTransferTag t n h ht := by cases t <;> first | (cases ht; decide) | (simp [RecType.event?] at h; done) | simp [sparse, RecType.event?] at ht
  eventTag v := by cases v <;> exact ⟨_, rfl, by decide⟩
  typeNames := by decide
  ccOneValue c m n hm hn :=
    congrArg Prod.snd (List.inj_on_of_nodup_map (show (sparse.ccTable.map Prod.fst).Nodup by decide) hm hn rfl)
  ccInjective a b n ha hb :=
    congrArg Prod.fst (List.inj_on_of_nodup_map (show (sparse.ccTable.map Prod.snd).Nodup by decide) ha hb rfl)
  ccSuccess := by decide
  ccGaps c := by simp [sparse]
  ccNames c hc := by
    fin_cases hc
    · exact ⟨6, by decide⟩
    · exact ⟨13, by decide⟩
    · exact ⟨25, by decide⟩

theorem witness_CompletionCodeLookup : Config.default.Admissible ∧ sparse.Admissible ∧
    ccDecode sparse 192 = .ok (.other "VendorDefined") :=
  ⟨Config.default_admissible, sparse_admissible, by decide⟩

theorem witness_CompletionCodeByteIsRecoverable : Config.default.Admissible ∧
    ccValue Config.default .splitTransactionError = some 36 ∧
    ccDecode Config.default 36 = .ok .splitTransactionError ∧ ccDecode Config.default 37 = .error 37 :=
  ⟨Config.default_admissible, rfl, by decide, by decide⟩

theorem witness_CcDecodeStep : State.reset.fatal = false ∧
    (.maxExitLatencyTooLargeError, 29) ∈ Config.default.ccTable ∧ (.isochBufferOverrun, 31) ∈ Config.default.ccTable ∧
    (Config.default.ccTable.all fun row => row.2 != 30 && row.2 != 37) = true := by
  decide

theorem witness_AllowedUnion : State.reset.fatal = false ∧
    (Instr.view .hostController (fresh .hostController)).type = EventVariant.hostController.toType ∧
    (Instr.view .transferEvent s1).type = EventVariant.transferEvent.toType := by decide

theorem witness_SetterFaultsExactlyOnBrokenContract : State.reset.fatal = false ∧
    Field.doorbellDbReason.owner = (Instr.view .doorbell (fresh .doorbell)).type ∧
    setterContract .doorbellDbReason (31 : BitVec 64).toNat = true ∧
    setterContract .doorbellDbReason (32 : BitVec 64).toNat = false := by decide

theorem witness_GateWhileFatal : latched.fatal = true ∧ isOperation Config.default (.ccDecode 1) = true ∧
    isOperation Config.default (setOn .doorbell (fresh .doorbell) .doorbellDbReason 32) = true := by decide

theorem witness_FourOutcomes : Config.default.Admissible ∧ State.reset.fatal = false ∧ latched.fatal = true ∧
    (isOperation Config.default (.onRaw .classify s1) = true ∧ keepsContract (.onRaw .classify s1) = true) ∧
    (isOperation Config.default (setOn .doorbell (fresh .doorbell) .doorbellDbReason 31) = true ∧
      keepsContract (setOn .doorbell (fresh .doorbell) .doorbellDbReason 31) = true ∧
      keepsContract (setOn .doorbell (fresh .doorbell) .doorbellDbReason 32) = false) :=
  ⟨Config.default_admissible, rfl, rfl, by decide, by decide⟩

theorem witness_OnlyNonOperationsAreRefused :
    isOperation Config.default (.onType .tryV .link (fresh .link)) = false ∧
    isOperation sparse (.onType .getC .setupStage s1) = false ∧
    isOperation Config.default (.onType .getC .setupStage s1) = true ∧
    refusal (.onType .tryV .link (fresh .link)) = some (.notSpecified (.tryV .link)) ∧
    refusal (.onType .tryV .doorbell (fresh .doorbell)) = none := by decide

theorem witness_OnlyResetClearsFatal : latched.fatal = true ∧
    step (latched.present (.ccDecode 1)) = .next (answered latched .fault) ∧
    step (latched.present .reset) = .next State.reset ∧ (latched.present .reset).inputs.head? = some .reset :=
  ⟨rfl, rfl, rfl, rfl⟩

theorem witness_StepKeepsLatchConsistent :
    (State.reset.present (setOn .doorbell (fresh .doorbell) .doorbellDbReason 32)).latchConsistent = true ∧
    step (State.reset.present (setOn .doorbell (fresh .doorbell) .doorbellDbReason 32)) =
      .next { latched with response := some .fault } := ⟨by decide, rfl⟩

theorem witness_OutcomeDependsOnOperandsAndFatalOnly :
    latched.fatal = { latched with fatalCause := none, inputs := [.reset] }.fatal ∧
    step (latched.present (.ccDecode 1)) = .next (answered latched .fault) := ⟨rfl, rfl⟩

theorem witness_OrderOfOperationsIsUnobservable :
    isOperation Config.default (.ccDecode 1) = true ∧ isOperation Config.default (.onRaw .typeOf s1) = true ∧
    step (State.reset.present (.ccDecode 1)) = .next (answered State.reset (.ok (.code .success))) ∧
    step ((answered State.reset (.ok (.code .success))).present (.onRaw .typeOf s1)) =
      .next (answered State.reset (.ok (.typeName .transferEvent))) := ⟨rfl, rfl, rfl, rfl⟩

theorem witness_ContractKeepingRunsNeverFault :
    keepsContract (setOn .doorbell (fresh .doorbell) .doorbellDbReason 31) = true ∧
    Host.Core.run Sys2Proof.core 1 (State.reset.present (setOn .doorbell (fresh .doorbell) .doorbellDbReason 31)) =
      .next (answered State.reset (.value (.typed .doorbell ⟨0x1F, 0, 0, 0x00009000⟩))) := ⟨by decide, rfl⟩

theorem witness_StepRunsTheDecodedRecord : decode Config.default s1 = .ok (Instr.view .transferEvent s1) ∧
    decode Config.default { s1 with w3 := 0x01038002 } = .error (.reservedBits .transferEvent) := by decide

theorem witness_StepWithoutInputKeepsLatch : latched.inputs = [] := rfl

theorem witness_ConfiguredMachine : State.reset.fatal = false ∧ sparse.typeTable .link = some 25 ∧
    sparse.typeTable .setupStage = none := by decide

end Sys2Proof.Tests
end

section
/-! PROOFS. The state (10_state.md): what the outcome of an operation depends on. -/

namespace Sys2Proof.Machine

/-- The gate reads FATAL and nothing else of the state, so an effect performed in two states with the same FATAL has the
same answer and leaves the same FATAL. -/
theorem perform_next_of_fatal_eq {op : OpName} {e : Effect} {s₁ s₂ t₁ : State} (hfatal : s₁.fatal = s₂.fatal)
    (h : perform op e s₁ = .next t₁) :
    ∃ t₂, perform op e s₂ = .next t₂ ∧ t₂.response = t₁.response ∧ t₂.fatal = t₁.fatal := by
  obtain ⟨ρ, -, hp⟩ | ⟨x, rfl, hclear, hp⟩ | ⟨c, rfl, hclear, hp⟩ | ⟨hop, hset, hp⟩ := perform_cases op e s₁
  · cases hp.symm.trans h
  · cases hp.symm.trans h
    exact ⟨_, perform_respond op x s₂ (hfatal ▸ hclear), by simp, by simp [hfatal]⟩
  · cases hp.symm.trans h
    exact ⟨_, perform_fatal op c s₂ (hfatal ▸ hclear), by simp, by simp⟩
  · cases hp.symm.trans h
    exact ⟨_, perform_gate op e s₂ (hfatal ▸ hset) hop, by simp, by simp [hfatal]⟩

/-- An input that is not reset fixes the operation and its effect before any state is seen: the tables are configuration
(10_state.md R17) and the operands come with the input (R12). -/
theorem stepWith_present_cases (cfg : Config) (x : Input) :
    x = .reset ∨ ∃ op e, ∀ s : State, stepWith cfg (s.present x) = perform op e (s.present x) := by
  cases x with
  | reset => exact .inl rfl
  | onType op t w => exact .inr ⟨_, _, fun s => stepWith_onType cfg s op t w⟩
  | onAllowed op v w => exact .inr ⟨_, _, fun s => stepWith_onAllowed cfg s op v w⟩
  | onRaw op w => exact .inr ⟨_, _, fun s => stepWith_onRaw cfg s op w⟩
  | ccDecode n => exact .inr ⟨_, _, fun s => stepWith_ccDecode cfg s n⟩

/-- R18 for the instance configured with `cfg`. -/
theorem stepWith_next_of_fatal_eq (cfg : Config) {s₁ s₂ t₁ : State} {x : Input} (hfatal : s₁.fatal = s₂.fatal)
    (h : stepWith cfg (s₁.present x) = .next t₁) :
    ∃ t₂, stepWith cfg (s₂.present x) = .next t₂ ∧ t₂.response = t₁.response ∧ t₂.fatal = t₁.fatal := by
  obtain rfl | ⟨op, e, hstep⟩ := stepWith_present_cases cfg x
  · cases (stepWith_reset cfg s₁).symm.trans h
    exact ⟨_, stepWith_reset cfg s₂, by simp, by simp⟩
  · rw [hstep] at h ⊢
    exact perform_next_of_fatal_eq (by simpa using hfatal) h

/-- Settles O55: the input fixes the effect, and performing an effect reads nothing of the state but FATAL. -/
theorem outcomeDependsOnOperandsAndFatalOnly : Obligations.OutcomeDependsOnOperandsAndFatalOnly := by
  intro s₁ s₂ t₁ x hfatal h
  rw [step_eq_stepWith] at h ⊢
  exact stepWith_next_of_fatal_eq Config.default hfatal h

end Sys2Proof.Machine
end

section
/-! PROOFS. The encoding (30_encoding.md): records whose tag names no event variant or whose reserved bits are set. -/

namespace Sys2Proof.Machine

open Sys2Proof.Statements

/-- A raw operation, presented while the latch is clear, is answered with what its effect responds. -/
theorem stepWith_onRaw_of_responds {cfg : Config} {s : State} {op : RawOp} {w : Raw} {x : Response}
    (hclear : s.fatal = false) (h : rawEffect cfg w op = .respond x) :
    stepWith cfg (s.present (.onRaw op w)) = .next (answered s x) := by
  rw [stepWith_onRaw, h, perform_respond _ _ _ (by simpa using hclear), complete_present]

/-- CLASSIFY hands the words back when no variant accepts them (41_validate_classify.md R79). -/
theorem classify_of_not_valid {cfg : Config} {w : Raw} (h : ∀ v, valid cfg v w = false) :
    classify cfg w = .error w := by
  obtain ⟨v, -, hv, -⟩ | ⟨-, hm⟩ := firstMatch_cases cfg w eventOrder
  · exact absurd hv (by simp [h v])
  · exact hm

/-- The step for CLASSIFY on a record no variant accepts. -/
theorem stepWith_classify_of_not_valid {cfg : Config} {s : State} {w : Raw} (hclear : s.fatal = false)
    (h : ∀ v, valid cfg v w = false) :
    stepWith cfg (s.present (.onRaw .classify w)) = .next (answered s (.err (.raw w))) :=
  stepWith_onRaw_of_responds hclear (by simp [rawEffect, classify_of_not_valid h])

/-- A tag that names no type is no variant's tag, so no validator accepts it (R45). -/
theorem not_valid_of_typeOfTag_eq_none {cfg : Config} {w : Raw} (h : typeOfTag cfg (tagOf w) = none)
    (v : EventVariant) : valid cfg v w = false :=
  Bool.eq_false_iff.2 fun hv => (typeOfTag_eq_none cfg _).1 h v.toType (tagOf_of_valid cfg v w hv)

/-- The tags without a row in the default TYPE_TABLE (R45): the rows hold 1 to 25 and 32 to 39. -/
theorem typeOfTag_default_eq_none_iff (n : BitVec 6) :
    typeOfTag Config.default n = none ↔ (n = 0 ∨ (26 ≤ n.toNat ∧ n.toNat ≤ 31) ∨ 40 ≤ n.toNat) := by
  revert n
  decide

/-- The type name of an event variant leads back to the variant. -/
@[simp] theorem event?_toType (v : EventVariant) : v.toType.event? = some v := by cases v <;> rfl

/-- Tags tell types apart, so a record is valid only as the variant its tag names (R33). -/
theorem toType_eq_of_valid {cfg : Config} (hcfg : cfg.Admissible) {w : Raw} {t : RecType} {v : EventVariant}
    (ht : cfg.typeTable t = some (tagOf w)) (hv : valid cfg v w = true) : v.toType = t :=
  hcfg.typeInjective _ _ _ (tagOf_of_valid cfg v w hv) ht

/-- RESMASK and RESERVED name the same bits (R35 to R42). Of the configuration both read MFINDEX_RESERVED only. -/
theorem getLsbD_resMask (cfg : Config) (v : EventVariant) (j : Fin 4) (k : Fin 32) :
    (wordAt (resMask cfg v) j).getLsbD k = reservedHasBit cfg v j k := by
  have hmask : resMask cfg v = resMask { Config.default with mfindexReserved := cfg.mfindexReserved } v := by
    cases v <;> rfl
  have hreserved : reserved cfg v = reserved { Config.default with mfindexReserved := cfg.mfindexReserved } v := by
    cases v <;> rfl
  rw [reservedHasBit, hmask, hreserved]
  generalize cfg.mfindexReserved = m
  revert j k
  cases m <;> cases v <;> decide

/-- In a valid record every reserved bit is zero. -/
theorem getLsbD_of_valid {cfg : Config} {v : EventVariant} {w : Raw} (hv : valid cfg v w = true) {j : Fin 4} {k : Nat}
    (hk : reservedHasBit cfg v j k = true) : (wordAt w j).getLsbD k = false := by
  simp only [valid, Bool.and_eq_true, List.all_eq_true] at hv
  simp only [reservedHasBit, rangeHasBit, List.any_eq_true, Bool.and_eq_true, beq_iff_eq, decide_eq_true_eq] at hk
  obtain ⟨-, hclear⟩ := hv
  obtain ⟨x, hx, rfl, hlo, hhi⟩ := hk
  exact (rangeClear_iff w x (hlo.trans hhi)).1 (hclear x hx) k hlo hhi

/-- A valid record shares no bit with its variant's RESMASK (41_validate_classify.md R70). -/
theorem and_resMask_of_valid {cfg : Config} {v : EventVariant} {w : Raw} (hv : valid cfg v w = true) (j : Fin 4) :
    wordAt w j &&& wordAt (resMask cfg v) j = 0 :=
  (and_eq_zero_iff _ _).2 fun k hk hm => getLsbD_of_valid hv (getLsbD_resMask cfg v j ⟨k, hk⟩ ▸ hm)

/-- A record tagged as no event type is valid as no variant. -/
theorem not_valid_of_event?_eq_none {cfg : Config} (hcfg : cfg.Admissible) {w : Raw} {t : RecType}
    (ht : cfg.typeTable t = some (tagOf w)) (hevent : t.event? = none) (v : EventVariant) : valid cfg v w = false := by
  refine Bool.eq_false_iff.2 fun hv => ?_
  obtain rfl := toType_eq_of_valid hcfg ht hv
  simp at hevent

/-- A record tagged as `v` with a bit of `v`'s RESMASK set is valid as no variant: not as `v` for the bit, not as
another for the tag. -/
theorem not_valid_of_and_resMask_ne_zero {cfg : Config} (hcfg : cfg.Admissible) {w : Raw} {v : EventVariant} {j : Fin 4}
    (ht : cfg.typeTable v.toType = some (tagOf w)) (hdirty : wordAt w j &&& wordAt (resMask cfg v) j ≠ 0)
    (u : EventVariant) : valid cfg u w = false := by
  refine Bool.eq_false_iff.2 fun hu => ?_
  obtain rfl := EventVariant.toType_injective u v (toType_eq_of_valid hcfg ht hu)
  exact hdirty (and_resMask_of_valid hu j)

/-- TYPE_OF names the type of the tag, whatever the reserved bits hold (40_framework.md R55). -/
theorem stepWith_typeOf_of_typeTable {cfg : Config} (hcfg : cfg.Admissible) {s : State} {w : Raw} {t : RecType}
    (hclear : s.fatal = false) (ht : cfg.typeTable t = some (tagOf w)) :
    stepWith cfg (s.present (.onRaw .typeOf w)) = .next (answered s (.ok (.typeName t))) :=
  stepWith_onRaw_of_responds hclear (by simp [rawEffect, (typeOfTag_eq_some cfg hcfg _ _).2 ht])

/-- Settles O5: a valid record has the tag of its variant, so an unnamed tag leaves every validator false and CLASSIFY
falls through to the record. -/
theorem unknownTagIsRecoverable : Obligations.UnknownTagIsRecoverable := by
  refine ⟨typeOfTag_default_eq_none_iff, fun cfg w v h => not_valid_of_typeOfTag_eq_none h v,
    fun s w hclear h => ?_, rfl⟩
  simp only [step_eq_stepWith]
  constructor
  · exact stepWith_classify_of_not_valid hclear (not_valid_of_typeOfTag_eq_none h)
  · exact stepWith_onRaw_of_responds hclear (by simp [rawEffect, h])

/-- Settles O6: the tag rules out every variant but the one it names, and that one the dirty bit. -/
theorem nonEventOrDirtyRecordIsHandedBack : Obligations.NonEventOrDirtyRecordIsHandedBack := by
  intro s w t hclear ht
  simp only [step_eq_stepWith]
  refine ⟨stepWith_typeOf_of_typeTable Config.default_admissible hclear ht, fun hevent => ?_,
    fun v j hv hdirty => ?_⟩
  · exact stepWith_classify_of_not_valid hclear (not_valid_of_event?_eq_none Config.default_admissible ht hevent)
  · subst hv
    exact stepWith_classify_of_not_valid hclear
      (not_valid_of_and_resMask_ne_zero Config.default_admissible ht hdirty)

end Sys2Proof.Machine
end

section
/-! PROOFS. The record framework (40_framework.md): new records (R50), the generic reads (R56) and chains of setters
(R58). -/

namespace Sys2Proof.Machine

open Sys2Proof.Statements

/-- An operation whose effect is the response `x`, whatever tag the table gives the type, answers `x`: under the default
table no type name is left out. -/
theorem typeOpAnswers_of_typedEffect {i : Instr} {op : TypeOp} {x : Response}
    (h : ∀ tag, Config.default.typeTable i.type = some tag →
      typedEffect Config.default i.type tag (encode i) op = .respond x) : typeOpAnswers i op x := by
  intro s t w hclear
  obtain ⟨tag, htag, he⟩ := typeEffect_default i.type (encode i) op
  rw [exec_onType, he, h tag htag, perform_respond _ _ _ (by simpa using hclear), complete_present]

/-! Chains of setters (R58). -/

/-- A setter of the type that breaks no contract answers with the record it gives (R57, R58). -/
theorem typeOpAnswers_set {i : Instr} {call : SetterCall} {r : Raw} (happlies : SetterCall.appliesTo i.type call = true)
    (happly : SetterCall.apply call (encode i) = .ok r) : typeOpAnswers i (.set call) (.value (.typed i.type r)) :=
  typeOpAnswers_of_typedEffect fun _ _ => by simp [typedEffect, happlies, happly]

/-- A chain is composition, in the monad whose error is the fatal cause. -/
theorem chain_append (a b : List SetterCall) (r : Raw) : chain (a ++ b) r = chain a r >>= chain b := by
  induction a generalizing r with
  | nil => rfl
  | cons call rest ih =>
    cases h : SetterCall.apply call r with
    | ok r' => simp only [List.cons_append, chain, h, ih]
    | error c => simp only [List.cons_append, chain, h]; rfl

/-- Settles O26: the set effect responds with the record the setter gives, and a chain is a monadic bind, whose two cases
are the two laws of chains. -/
theorem settersChain : Obligations.SettersChain := by
  refine ⟨fun i call r happlies happly => typeOpAnswers_set happlies happly, fun a b r r' h => ?_, fun a b r c h => ?_⟩
  · rw [chain_append, h]; rfl
  · rw [chain_append, h]; rfl

/-! New records (R50). -/

/-- The bits of the stamped word: the tag's in 15:10, zero elsewhere. -/
theorem getLsbD_tagWord (tag : BitVec 6) (k : Nat) :
    (tagWord tag).getLsbD k = (decide (10 ≤ k) && tag.getLsbD (k - 10)) := by
  have hhigh : 6 ≤ k - 10 → tag.getLsbD (k - 10) = false := BitVec.getLsbD_of_ge _ _
  simp only [tagWord, BitVec.getLsbD_shiftLeft, BitVec.getLsbD_setWidth]
  grind

/-- A slice of a new record that keeps clear of the tag's bits is zero. -/
theorem extractLsb'_newRecord_eq_zero (tag : BitVec 6) (w : Fin 4) (lo n : Nat)
    (hspares : w = 3 → lo + n ≤ 10 ∨ 16 ≤ lo) : (wordAt (newRecord tag) w).extractLsb' lo n = 0 := by
  match w with
  | 0 | 1 | 2 => simp [wordAt, newRecord]
  | 3 =>
    refine (extractLsb'_eq_zero_iff _ _ _).2 fun k hk => ?_
    obtain hbelow | habove := hspares rfl
    · simp [wordAt, newRecord, getLsbD_tagWord, show ¬ 10 ≤ lo + k by omega]
    · have htag : tag.getLsbD (lo + k - 10) = false := BitVec.getLsbD_of_ge _ _ (by omega)
      simp [wordAt, newRecord, getLsbD_tagWord, htag]

/-- No field of FIELDS meets the tag's bits. -/
theorem fieldPlace_spares_tag {f : Field} {w : Fin 4} {hi lo : Nat} (h : fieldPlace f = .bits w hi lo) :
    w = 3 → lo + (hi - lo + 1) ≤ 10 ∨ 16 ≤ lo := by
  cases f <;> cases h <;> decide

/-- No range of RESERVED meets the tag's bits. -/
theorem reserved_spares_tag (cfg : Config) (v : EventVariant) :
    ∀ x ∈ reserved cfg v, x.w = 3 → x.lo + (x.hi - x.lo + 1) ≤ 10 ∨ 16 ≤ x.lo := by
  cases v with
  | mfindexWrap => cases hm : cfg.mfindexReserved <;> simp only [reserved, hm] <;> decide
  | _ => simp only [reserved]; decide

@[simp] theorem getCycle_newRecord (tag : BitVec 6) : getCycle (newRecord tag) = 0 :=
  extractLsb'_newRecord_eq_zero tag 3 0 1 (by decide)

@[simp] theorem tagOf_newRecord (tag : BitVec 6) : tagOf (newRecord tag) = tag := by
  ext k hk
  simp [tagOf, newRecord, getLsbD_tagWord, hk]

@[simp] theorem readField_newRecord (f : Field) (tag : BitVec 6) : readField f (newRecord tag) = 0 := by
  cases h : fieldPlace f with
  | bits w hi lo => simp [readField, h, getField, extractLsb'_newRecord_eq_zero tag w lo _ (fieldPlace_spares_tag h)]
  | pointer a => simp [readField, h, getPtr, newRecord]
  | notificationData => simp [readField, h, getNotificationData, newRecord]

/-- The completion-code getter on a new record looks up byte 0. -/
theorem fieldResponse_newRecord_of_code (cfg : Config) {f : Field} (h : fieldKind f = .code) (tag : BitVec 6) :
    fieldResponse cfg f (newRecord tag) = ccResponse cfg 0 := by
  simp [fieldResponse, h]

/-- A new record of an event variant is a valid instance of it. -/
theorem valid_newRecord {cfg : Config} {v : EventVariant} {tag : BitVec 6} (ht : cfg.typeTable v.toType = some tag) :
    valid cfg v (newRecord tag) = true := by
  simp only [valid, tagOf_newRecord, ht, beq_self_eq_true, Bool.true_and, List.all_eq_true]
  intro x hx
  simp [rangeClear, extractLsb'_newRecord_eq_zero tag x.w x.lo _ (reserved_spares_tag cfg v x hx)]

/-- And of no other variant: the tag names one. -/
theorem valid_newRecord_iff {cfg : Config} (hcfg : cfg.Admissible) {u v : EventVariant} {tag : BitVec 6}
    (ht : cfg.typeTable v.toType = some tag) : valid cfg u (newRecord tag) = true ↔ u = v := by
  constructor
  · intro hu
    exact EventVariant.toType_injective u v (toType_eq_of_valid hcfg (by simpa using ht) hu)
  · rintro rfl
    exact valid_newRecord ht

/-- NEW.T answers with the new record of the type's tag. -/
theorem typeOpAnswers_new {i : Instr} {tag : BitVec 6} (ht : Config.default.typeTable i.type = some tag) :
    typeOpAnswers i .new (.value (.typed i.type (newRecord tag))) :=
  typeOpAnswers_of_typedEffect fun n hn => by
    obtain rfl : tag = n := Option.some.inj (ht.symm.trans hn)
    rfl

/-- Settles O20: only the tag's bits of a new record are set, and neither FIELDS nor RESERVED meets them. -/
theorem newStampsTheTag : Obligations.NewStampsTheTag := by
  refine ⟨fun i => ?_, fun tag => ⟨getCycle_newRecord tag, tagOf_newRecord tag, fun f => readField_newRecord f tag⟩,
    fun tag f hcode => fieldResponse_newRecord_of_code _ hcode tag,
    fun u v tag ht => valid_newRecord_iff Config.default_admissible ht⟩
  obtain ⟨tag, ht⟩ := Option.isSome_iff_exists.1 (default_typeTable_isSome i.type)
  exact ⟨tag, ht, typeOpAnswers_new ht⟩

/-! The generic reads (R56). -/

/-- `get_field` as arithmetic on the word: at most 32 bits, so extending the slice to 64 loses none. -/
theorem toNat_getField (r : Raw) (w : Fin 4) {hi lo : Nat} (hhi : hi < 32) :
    (getField r w hi lo).toNat = (wordAt r w).toNat / 2 ^ lo % 2 ^ (hi - lo + 1) := by
  have hwidth : hi - lo + 1 ≤ 64 := by omega
  rw [getField, BitVec.toNat_setWidth_of_le hwidth, BitVec.extractLsb'_toNat, Nat.shiftRight_eq_div_pow]

/-- `get_ptr` is the two words put together, the high one first. -/
theorem getPtr_eq_append (r : Raw) : getPtr r = r.w1 ++ r.w0 := by
  rw [getPtr, BitVec.append_def, BitVec.shiftLeftZeroExtend_eq, BitVec.setWidth'_eq]

theorem toNat_getPtr (r : Raw) : (getPtr r).toNat = r.w1.toNat * 2 ^ 32 + r.w0.toNat := by
  rw [getPtr_eq_append, BitVec.toNat_append, ← Nat.shiftLeft_add_eq_or_of_lt r.w0.isLt, Nat.shiftLeft_eq]

/-- Settles O24: a slice is a quotient and a remainder, and the two words of a pointer are appended. -/
theorem genericFieldRead : Obligations.GenericFieldRead :=
  ⟨fun r w _ _ _ hhi => toNat_getField r w hhi, fun r => ⟨rfl, toNat_getPtr r⟩⟩

end Sys2Proof.Machine
end

section
/-! PROOFS. Validation and classification (41_validate_classify.md): the validator by its printed masks (R70), TRY of the
first four variants (R71 to R74), CLASSIFY (R79) and the union Allowed (R81 to R83). -/

namespace Sys2Proof.Machine

open Sys2Proof.Statements

/-! The validator by its two tables (R70). -/

/-- Every range of RESERVED is a range of bits of a 32-bit word. -/
theorem reserved_within_word (cfg : Config) (v : EventVariant) :
    ∀ x ∈ reserved cfg v, x.lo ≤ x.hi ∧ x.hi < 32 := by
  cases v with
  | mfindexWrap => cases hm : cfg.mfindexReserved <;> simp only [reserved, hm] <;> decide
  | _ => simp only [reserved]; decide

/-- The bits of a reserved range are bits of the variant's RESMASK. -/
theorem getLsbD_resMask_of_mem_reserved {cfg : Config} {v : EventVariant} {x : BitRange} (hx : x ∈ reserved cfg v)
    {k : Nat} (hlo : x.lo ≤ k) (hhi : k ≤ x.hi) : (wordAt (resMask cfg v) x.w).getLsbD k = true := by
  have hk : k < 32 := hhi.trans_lt (reserved_within_word cfg v x hx).2
  have hbit : reservedHasBit cfg v x.w k = true := List.any_eq_true.2 ⟨x, hx, by simp [rangeHasBit, hlo, hhi]⟩
  exact (getLsbD_resMask cfg v x.w ⟨k, hk⟩).trans hbit

/-- The validator as its table states it: the tag, and every reserved range zero. -/
theorem valid_iff_reserved (cfg : Config) (v : EventVariant) (r : Raw) :
    valid cfg v r = true ↔ cfg.typeTable v.toType = some (tagOf r) ∧ ∀ x ∈ reserved cfg v, rangeClear r x = true := by
  simp [valid]

/-- The validator as the printed masks state it: the tag, and no bit shared with RESMASK. -/
theorem valid_iff_resMask (cfg : Config) (v : EventVariant) (r : Raw) :
    valid cfg v r = true ↔
      cfg.typeTable v.toType = some (tagOf r) ∧ ∀ j, wordAt r j &&& wordAt (resMask cfg v) j = 0 := by
  constructor
  · exact fun hv => ⟨tagOf_of_valid cfg v r hv, and_resMask_of_valid hv⟩
  · rintro ⟨htag, hmask⟩
    refine (valid_iff_reserved cfg v r).2 ⟨htag, fun x hx => ?_⟩
    obtain ⟨hle, hlt⟩ := reserved_within_word cfg v x hx
    exact (rangeClear_iff r x hle).2 fun k hlo hhi =>
      (and_eq_zero_iff _ _).1 (hmask x.w) k (hhi.trans_lt hlt) (getLsbD_resMask_of_mem_reserved hx hlo hhi)

/-- The bits of the tag's mask `0x0000FC00`. -/
theorem getLsbD_tagMask (k : Nat) : (0x0000FC00 : Word).getLsbD k = decide (10 ≤ k ∧ k ≤ 15) :=
  getLsbD_bitMask 15 10 k (by decide) (by decide)

/-- RESMASK spares the tag. -/
theorem resMask_and_tagMask (cfg : Config) (v : EventVariant) : (resMask cfg v).w3 &&& 0x0000FC00 = 0 := by
  cases v with
  | mfindexWrap => cases hm : cfg.mfindexReserved <;> simp only [resMask, hm] <;> decide
  | _ => simp only [resMask]; decide

/-- Masking a word by the tag's bits leaves the tag where it stands. -/
theorem and_tagMask (x : Word) : x &&& 0x0000FC00 = tagWord (x.extractLsb' 10 6) := by
  apply BitVec.eq_of_getLsbD_eq
  intro k hk
  simp only [BitVec.getLsbD_and, getLsbD_tagMask, getLsbD_tagWord, BitVec.getLsbD_extractLsb']
  grind

/-- A stamped tag has no bit outside the tag's mask. -/
theorem tagWord_and_eq_zero {m : Word} (hm : m &&& 0x0000FC00 = 0) (tag : BitVec 6) : tagWord tag &&& m = 0 := by
  have htag : tagWord tag = tagWord tag &&& 0x0000FC00 := by
    rw [and_tagMask]
    exact congrArg tagWord (tagOf_newRecord tag).symm
  rw [htag, BitVec.and_assoc, BitVec.and_comm _ m, hm]
  exact BitVec.and_zero

/-- A tag can be read back from the word it is stamped into. -/
theorem tagWord_injective {a b : BitVec 6} (h : tagWord a = tagWord b) : a = b := by
  rw [← tagOf_newRecord a, newRecord, h]
  exact tagOf_newRecord b

/-- A word matches a tag under a mask and the tag's bits together exactly when it is zero under the mask and holds the
tag. -/
theorem and_or_tagMask_eq_tagWord_iff {m : Word} (hm : m &&& 0x0000FC00 = 0) (x : Word) (tag : BitVec 6) :
    x &&& (m ||| 0x0000FC00) = tagWord tag ↔ x &&& m = 0 ∧ x.extractLsb' 10 6 = tag := by
  have hsplit : x &&& (m ||| 0x0000FC00) = x &&& m ||| tagWord (x.extractLsb' 10 6) := by
    rw [← and_tagMask]
    ext k hk
    simp only [BitVec.getElem_and, BitVec.getElem_or, Bool.and_or_distrib_left]
  constructor
  · intro h
    have hmask : x &&& m = 0 :=
      calc x &&& m = (x &&& (m ||| 0x0000FC00)) &&& m := by
            ext k hk
            simp only [BitVec.getElem_and, BitVec.getElem_or]
            grind
        _ = 0 := by rw [h, tagWord_and_eq_zero hm]
    rw [hsplit, hmask, BitVec.ofNat_eq_ofNat, BitVec.zero_or] at h
    exact ⟨hmask, tagWord_injective h⟩
  · rintro ⟨hmask, rfl⟩
    rw [hsplit, hmask, BitVec.ofNat_eq_ofNat, BitVec.zero_or]

/-- The validator word by word, for the tag the table gives the variant. -/
theorem valid_iff_words {cfg : Config} {v : EventVariant} {tag : BitVec 6} (ht : cfg.typeTable v.toType = some tag)
    (r : Raw) : valid cfg v r = true ↔
      r.w3.extractLsb' 10 6 = tag ∧ r.w0 &&& (resMask cfg v).w0 = 0 ∧ r.w1 &&& (resMask cfg v).w1 = 0 ∧
        r.w2 &&& (resMask cfg v).w2 = 0 ∧ r.w3 &&& (resMask cfg v).w3 = 0 := by
  rw [valid_iff_resMask, ht, Option.some_inj, eq_comm (a := tag)]
  simp only [Fin.forall_fin_succ, IsEmpty.forall_iff, and_true]
  rfl

/-- R70's second form, the tag and the reserved bits of `W[3]` under one mask. -/
theorem valid_iff_match {cfg : Config} {v : EventVariant} {tag : BitVec 6} (ht : cfg.typeTable v.toType = some tag)
    (r : Raw) : valid cfg v r = true ↔
      r.w0 &&& (resMask cfg v).w0 = 0 ∧ r.w1 &&& (resMask cfg v).w1 = 0 ∧ r.w2 &&& (resMask cfg v).w2 = 0 ∧
        r.w3 &&& ((resMask cfg v).w3 ||| 0x0000FC00) = tagWord tag := by
  rw [and_or_tagMask_eq_tagWord_iff (resMask_and_tagMask cfg v), valid_iff_words ht]
  tauto

/-- Settles O9: RESERVED is the validator's own table, RESMASK names the same bits, and TRY branches on the validator. -/
theorem validatorByTableAndByMasks : Obligations.ValidatorByTableAndByMasks := by
  intro cfg v r
  refine ⟨?_, fun tag ht => valid_iff_match ht r, fun h => ?_, fun h => ?_⟩
  · simp only [valid_iff_reserved, rangeClear, tagOf, beq_iff_eq]
  · simp [tryV, h]
  · simp [tryV, h]

/-! TRY of the first four variants (R71 to R74). -/

/-- TRY of a record of an event variant answers by the validator. -/
theorem triesBy_of_valid_iff {i : Instr} {v : EventVariant} {p : Raw → Prop} (hi : i.type = v.toType)
    (hp : valid Config.default v (encode i) = true ↔ p (encode i)) : triesBy i p := by
  constructor
  · intro h
    exact typeOpAnswers_of_typedEffect fun _ _ => by simp [typedEffect, hi, tryV, hp.2 h]
  · intro h
    exact typeOpAnswers_of_typedEffect fun _ _ => by simp [typedEffect, hi, tryV, mt hp.1 h]

/-- The mask of a wholly reserved word asks that the word be zero. -/
@[simp] theorem and_fullMask (x : Word) : x &&& 0xFFFFFFFF#32 = x := BitVec.and_allOnes

/-- Settles O10: at the default tags, the validator word by word is what each rule prints. -/
theorem tryFirstFourVariants : Obligations.TryFirstFourVariants := by
  refine ⟨fun r => triesBy_of_valid_iff rfl ((valid_iff_words (v := .transferEvent) rfl _).trans ?_),
    fun r => triesBy_of_valid_iff rfl ((valid_iff_words (v := .commandCompletion) rfl _).trans ?_),
    fun r => triesBy_of_valid_iff rfl ((valid_iff_words (v := .portStatusChange) rfl _).trans ?_),
    fun r => triesBy_of_valid_iff rfl ((valid_iff_words (v := .bandwidthRequest) rfl _).trans ?_)⟩
  all_goals simp [resMask]

/-! CLASSIFY (R79). -/

/-- CLASSIFY answers with the variant that accepts the record: the tag names no second one. -/
theorem classify_of_valid {cfg : Config} (hcfg : cfg.Admissible) {v : EventVariant} {w : Raw}
    (hv : valid cfg v w = true) : classify cfg w = .ok (v, w) := by
  obtain ⟨u, -, hu, hm⟩ | ⟨hnone, -⟩ := firstMatch_cases cfg w eventOrder
  · obtain rfl := EventVariant.toType_injective u v (toType_eq_of_valid hcfg (tagOf_of_valid cfg v w hv) hu)
    exact hm
  · exact absurd hv (by simp [hnone v (mem_eventOrder v)])

/-- Settles O12: a variant that accepts the record is the only one, and when none does the trials run out. -/
theorem classifyAnswers : Obligations.ClassifyAnswers := by
  intro s w hclear
  simp only [step_eq_stepWith]
  refine ⟨fun v hv => ?_, stepWith_classify_of_not_valid hclear⟩
  exact stepWith_onRaw_of_responds hclear (by simp [rawEffect, classify_of_valid Config.default_admissible hv])

/-! The union Allowed (R81 to R83). -/

/-- WRAP.V answers with the record as the alternative `v` of the union (R81). -/
theorem typeOpAnswers_wrap {i : Instr} {v : EventVariant} (hi : i.type = v.toType) :
    typeOpAnswers i .wrap (.value (.allowed v (encode i))) :=
  typeOpAnswers_of_typedEffect fun _ _ => by simp [typedEffect, hi]

/-- An operation on the union answers what its effect responds. -/
theorem allowedOpAnswers_of_allowedEffect {i : Instr} {op : AllowedOp} {x : Response}
    (h : allowedEffect i.type (encode i) op = .respond x) : allowedOpAnswers i op x := by
  intro s v w hclear
  rw [exec_onAllowed, h, perform_respond _ _ _ (by simpa using hclear), complete_present]

/-- Settles O46: the type names the alternative, and each operation on it is the record's own (R51 to R53). -/
theorem allowedUnion : Obligations.AllowedUnion := by
  intro i v b hi
  refine ⟨typeOpAnswers_wrap hi, allowedOpAnswers_of_allowedEffect ?_, allowedOpAnswers_of_allowedEffect ?_,
    allowedOpAnswers_of_allowedEffect ?_⟩
  · simp [allowedEffect, hi, getCycle]
  · simp [allowedEffect, hi, setCycle_eq]
  · simp [allowedEffect, hi]

end Sys2Proof.Machine
end

section
/-! PROOFS. The event fields (42_event_fields.md): the getters of the fields that span two words (R90, R102, R128). -/

namespace Sys2Proof.Machine

open Sys2Proof.Statements

/-- The getter of a numeric field of the record's own type answers with the bits FIELDS places it at. -/
theorem getsNumber_of_readField {i : Instr} {f : Field} {x : Raw → BitVec 64} (howner : f.owner = i.type)
    (hkind : fieldKind f = .number) (hread : readField f (encode i) = x (encode i)) : getsNumber i f x :=
  typeOpAnswers_of_typedEffect fun _ _ => by simp [typedEffect, howner, fieldResponse, hkind, hread]

/-- R128's second form: shifting the appended words right by 8 drops the low byte of `W[0]`. -/
theorem getNotificationData_eq_append (r : Raw) :
    getNotificationData r = (r.w1 ++ r.w0.extractLsb' 8 24).setWidth 64 := by
  have hshift : getNotificationData r = (r.w1 ++ r.w0) >>> 8 :=
    congrArg (fun p : BitVec 64 => p >>> 8) (getPtr_eq_append r)
  rw [hshift]
  ext k hk
  simp only [BitVec.getElem_ushiftRight, BitVec.getElem_setWidth, BitVec.getLsbD_append, BitVec.getLsbD_extractLsb']
  grind

/-- R128's first form: the shift leaves no bit above 55, so taking the low 56 bits loses none. -/
theorem getNotificationData_eq_slice (r : Raw) :
    getNotificationData r =
      ((((r.w1.setWidth 64 <<< 32) ||| r.w0.setWidth 64) >>> 8).extractLsb' 0 56).setWidth 64 := by
  change _ = ((getNotificationData r).extractLsb' 0 56).setWidth 64
  rw [getNotificationData_eq_append]
  ext k hk
  simp only [BitVec.getElem_setWidth, BitVec.getLsbD_extractLsb', BitVec.getLsbD_setWidth]
  grind

/-- Settles O30: each of the three fields reads as its rule prints it; the pointers do so by the definition of
`get_ptr`. -/
theorem pointerAndDataGetters : Obligations.PointerAndDataGetters := by
  refine ⟨fun r => ?trbPointer, fun r => ?commandTrbPointer, fun r => ⟨?dataBySlice, ?dataByAppend⟩⟩
  case trbPointer => exact getsNumber_of_readField rfl rfl rfl
  case commandTrbPointer => exact getsNumber_of_readField rfl rfl rfl
  case dataBySlice => exact getsNumber_of_readField rfl rfl (getNotificationData_eq_slice _)
  case dataByAppend => exact getsNumber_of_readField rfl rfl (getNotificationData_eq_append _)

end Sys2Proof.Machine
end

section
/-! PROOFS. The completion code (43_completion_code.md): the decoder is the table (R141, R143), and the getter of every
event variant looks up the same byte (R144). -/

namespace Sys2Proof.Machine

open Sys2Proof.Statements

/-! The decoder (R141, R143). -/

/-- The decoder names the row with the byte: of an injective table there is one. -/
theorem ccDecode_eq_ok_iff {cfg : Config} (hcfg : cfg.Admissible) (n : BitVec 8) (c : CompletionCode) :
    ccDecode cfg n = .ok c ↔ (c, n) ∈ cfg.ccTable := by
  obtain ⟨d, hd, hm⟩ | ⟨hnone, hm⟩ := ccDecode_cases cfg n
  · rw [hm, Except.ok.injEq]
    constructor
    · rintro rfl
      exact hd
    · exact fun hc => hcfg.ccInjective d c n hd hc
  · exact iff_of_false (by simp [hm]) (hnone c)

/-- The decoder hands the byte back when no row has it, whatever the table. -/
theorem ccDecode_eq_error_iff (cfg : Config) (n : BitVec 8) :
    ccDecode cfg n = .error n ↔ ∀ c, (c, n) ∉ cfg.ccTable := by
  obtain ⟨c, hc, hm⟩ | ⟨hnone, hm⟩ := ccDecode_cases cfg n
  · exact iff_of_false (by simp [hm]) fun hnone => hnone c hc
  · exact iff_of_true hm hnone

/-- Settles O42: the two equivalences say what the decoder does, and the boundary bytes are R143's constraints on the
table. -/
theorem completionCodeLookup : Obligations.CompletionCodeLookup := by
  intro cfg hcfg
  refine ⟨ccDecode_eq_ok_iff hcfg, ccDecode_eq_error_iff cfg, ?gapAt30, ?success, ?gapAt255⟩
  case gapAt30 => exact (ccDecode_eq_error_iff cfg 30).2 fun c => (hcfg.ccGaps c).1
  case success => exact (ccDecode_eq_ok_iff hcfg 1 .success).2 hcfg.ccSuccess
  case gapAt255 => exact (ccDecode_eq_error_iff cfg 255).2 fun c => (hcfg.ccGaps c).2

/-! The getters (R144). -/

/-- FIELDS places the completion code of every variant at the same eight bits. -/
theorem fieldPlace_of_code {f : Field} (hcode : fieldKind f = .code) : fieldPlace f = .bits 2 31 24 := by
  cases f <;> cases hcode <;> rfl

/-- The completion-code getter is the lookup of `W[2][31:24]`: extending the byte to 64 bits and cutting it back loses
nothing. -/
theorem fieldResponse_of_code (cfg : Config) {f : Field} (hcode : fieldKind f = .code) (r : Raw) :
    fieldResponse cfg f r = ccResponse cfg (r.w2.extractLsb' 24 8) := by
  have hread : readField f r = (r.w2.extractLsb' 24 8).setWidth 64 := by
    simp only [readField, fieldPlace_of_code hcode]
    rfl
  simp [fieldResponse, hcode, hread]

/-- A completion-code field of the record's own type is answered with the lookup. -/
theorem getsCode_of_owner {i : Instr} {f : Field} (howner : f.owner = i.type) (hcode : fieldKind f = .code) :
    getsCode i f :=
  typeOpAnswers_of_typedEffect fun _ _ => by simp [typedEffect, howner, fieldResponse_of_code _ hcode]

/-- Settles O45: each of the eight fields is a completion code of its own variant. -/
theorem completionCodeGetters : Obligations.CompletionCodeGetters :=
  ⟨fun _ => getsCode_of_owner rfl rfl, fun _ => getsCode_of_owner rfl rfl, fun _ => getsCode_of_owner rfl rfl,
    fun _ => getsCode_of_owner rfl rfl, fun _ => getsCode_of_owner rfl rfl, fun _ => getsCode_of_owner rfl rfl,
    fun _ => getsCode_of_owner rfl rfl, fun _ => getsCode_of_owner rfl rfl⟩

end Sys2Proof.Machine
end

section
/-! PROOFS. Reset and hazards (70_reset_and_hazards.md): the answer to one operation is no input of the next (R183). -/

namespace Sys2Proof.Machine

/-- The later answer replaces the earlier one. -/
@[simp] theorem answered_answered (s : State) (a b : Response) : answered (answered s a) b = answered s b := rfl

/-- Fault entry replaces the answer before it. -/
@[simp] theorem faulted_answered (s : State) (a : Response) (c : FatalCause) (op : OpName) :
    faulted (answered s a) c op = faulted s c op := rfl

/-- An effect gives the same next state whatever the operation before was answered with: the gate reads FATAL, and each
way on overwrites the answer. -/
theorem perform_present_answered (op : OpName) (e : Effect) (s : State) (a : Response) (x : Input) :
    perform op e ((answered s a).present x) = perform op e (s.present x) := by
  obtain ⟨ρ, rfl, hp⟩ | ⟨y, rfl, hclear, hp⟩ | ⟨c, rfl, hclear, hp⟩ | ⟨hop, hset, hp⟩ :=
    perform_cases op e (s.present x)
  · rw [hp, perform_refuse]
  · rw [hp, perform_respond op y _ (by simpa using hclear)]
    simp
  · rw [hp, perform_fatal op c _ (by simpa using hclear)]
    simp
  · rw [hp, perform_gate op e _ (by simpa using hset) hop]
    simp

/-- No hazard (R183), for the instance configured with `cfg`: a step does not see the answer to the step before. -/
theorem stepWith_present_answered (cfg : Config) (s : State) (a : Response) (x : Input) :
    stepWith cfg ((answered s a).present x) = stepWith cfg (s.present x) := by
  obtain rfl | ⟨op, e, hstep⟩ := stepWith_present_cases cfg x
  · rfl
  · rw [hstep, hstep, perform_present_answered]

/-- Settles O56: after either operation the other steps as it does from `s`, so the two orders ask the same of the
model. -/
theorem orderOfOperationsIsUnobservable : Obligations.OrderOfOperationsIsUnobservable := by
  intro s x y a b _ _ _ _ h
  simp only [step_eq_stepWith, stepWith_present_answered] at h ⊢
  exact h.symm

end Sys2Proof.Machine
end

section
/-! PROOFS. The encoding (30_encoding.md; 20_memory.md): the decoder and the encoder are inverse, as words and as bytes, and
the raw conversions lose no bit (40_framework.md R53, R54). -/

namespace Sys2Proof.Machine

open Sys2Proof.Statements

/-! Views (R53, R54). -/

/-- Viewing an instruction's own words as its own type gives it back. -/
theorem view_encode (i : Instr) : Instr.view i.type (encode i) = i := by
  cases i with
  | link r => exact Laws.ViewEncode.link r
  | transferEvent r => exact Laws.ViewEncode.transferEvent r
  | commandCompletion r => exact Laws.ViewEncode.commandCompletion r
  | portStatusChange r => exact Laws.ViewEncode.portStatusChange r
  | bandwidthRequest r => exact Laws.ViewEncode.bandwidthRequest r
  | doorbell r => exact Laws.ViewEncode.doorbell r
  | hostController r => exact Laws.ViewEncode.hostController r
  | deviceNotification r => exact Laws.ViewEncode.deviceNotification r
  | mfindexWrap r => exact Laws.ViewEncode.mfindexWrap r
  | _ r => simp only [Instr.type, encode, Instr.view, TagOnly.ofRaw_toRaw]

/-- Settles O22: the effects carry the words over unchanged, and viewing and encoding are inverse. -/
theorem rawConversionIsReinterpretation : Obligations.RawConversionIsReinterpretation :=
  ⟨fun _ => ⟨typeOpAnswers_of_typedEffect fun _ _ => rfl, typeOpAnswers_of_typedEffect fun _ _ => rfl⟩,
    encode_view, view_encode⟩

/-! The decoder (R45, R46; log 16). -/

/-- Every format has the tag at the same bits. -/
theorem tagBits_view (t : RecType) (w : Raw) : (Instr.view t w).tagBits = tagOf w := by cases t <;> rfl

/-- A well-formed instruction holds the tag of its type. -/
theorem typeTable_of_wellFormed {cfg : Config} {i : Instr} (h : i.wellFormed cfg = true) :
    cfg.typeTable i.type = some i.tagBits := by
  simp only [Instr.wellFormed, Bool.and_eq_true, beq_iff_eq] at h
  exact h.1

/-- A view is what the decoder gives when the words hold the type's tag and the view is well-formed. -/
theorem decode_of_wellFormed {cfg : Config} (hcfg : cfg.Admissible) {t : RecType} {w : Raw}
    (h : (Instr.view t w).wellFormed cfg = true) : decode cfg w = .ok (Instr.view t w) := by
  have htag : cfg.typeTable t = some (tagOf w) := by simpa [tagBits_view] using typeTable_of_wellFormed h
  simp [decode, (typeOfTag_eq_some cfg hcfg _ _).2 htag, h]

theorem decode_encode {cfg : Config} (hcfg : cfg.Admissible) {i : Instr} (h : i.wellFormed cfg = true) :
    decode cfg (encode i) = .ok i := by
  rw [← view_encode i] at h
  rw [decode_of_wellFormed hcfg h, view_encode]

/-- Settles O2: what the decoder gives is a view of the words. -/
theorem encodeOfDecodedIsIdentity : Obligations.EncodeOfDecodedIsIdentity := by
  intro cfg w i h
  obtain ⟨t, ht, rfl, hwf⟩ := decode_eq_view cfg w i h
  exact ⟨encode_view t w, hwf, by simpa using typeTable_of_typeOfTag cfg _ t ht⟩

/-- Settles O3: the decoder is evaluated on each word. -/
theorem decodesWordsOfTheFormats : Obligations.DecodesWordsOfTheFormats := by
  refine ⟨?_, ?_, ?_, ?_, ?_, ?_⟩ <;> decide

/-! The 16-byte image (R21, R22). -/

/-- A word is its four bytes, the least significant first. -/
theorem wordOfBytes_byteOf (w : Word) : wordOfBytes (byteOf w 0) (byteOf w 1) (byteOf w 2) (byteOf w 3) = w := by
  ext k hk
  simp only [wordOfBytes, byteOf]
  grind

/-- The bytes of a word put together from four are the four. -/
theorem byteOf_wordOfBytes (b0 b1 b2 b3 : Byte) :
    byteOf (wordOfBytes b0 b1 b2 b3) 0 = b0 ∧ byteOf (wordOfBytes b0 b1 b2 b3) 1 = b1 ∧
      byteOf (wordOfBytes b0 b1 b2 b3) 2 = b2 ∧ byteOf (wordOfBytes b0 b1 b2 b3) 3 = b3 := by
  refine ⟨?_, ?_, ?_, ?_⟩
  all_goals
    ext k hk
    simp only [wordOfBytes, byteOf, BitVec.getElem_extractLsb', BitVec.getLsbD_append]
    grind

/-- What `from_bytes` reads from a record's image is the record; what follows the image is left over. -/
theorem fromBytes_toBytes (r : Raw) (rest : List Byte) : fromBytes (toBytes r ++ rest) = some (r, rest) := by
  simp [toBytes, fromBytes, wordOfBytes_byteOf]

/-- Every 16 bytes are the image of the record `from_bytes` reads from them. -/
theorem exists_fromBytes_of_length {b : List Byte} (h : b.length = 16) :
    ∃ r : Raw, fromBytes b = some (r, []) ∧ toBytes r = b ∧
      ∀ i : Fin 4, wordAt r i =
        b.getD (4 * i.val + 3) 0 ++ b.getD (4 * i.val + 2) 0 ++ b.getD (4 * i.val + 1) 0 ++ b.getD (4 * i.val) 0 := by
  match b, h with
  | [a0, a1, a2, a3, b0, b1, b2, b3, c0, c1, c2, c3, d0, d1, d2, d3], _ =>
    exact ⟨_, rfl, by simp [toBytes, byteOf_wordOfBytes], fun i => by fin_cases i <;> rfl⟩

/-- Settles O4: the image lists the bytes of the words in order, and each word is put together from its bytes. -/
theorem byteImageRoundTrip : Obligations.ByteImageRoundTrip := by
  refine ⟨fun r => ⟨rfl, fun i j => by fin_cases i <;> fin_cases j <;> rfl, ?_⟩, fromBytes_toBytes,
    fun b => exists_fromBytes_of_length⟩
  intro b11 b12 b13 h11 h12 h13
  cases h11
  cases h12
  cases h13
  refine ⟨rfl, ?_, ?_⟩
  all_goals
    ext k hk
    simp only [byteOf, getCycle, tagOf, BitVec.getElem_extractLsb', BitVec.getLsbD_extractLsb']
    grind

/-- Settles O1: the tag leads the decoder back to the type, and the view of the encoding is the instruction; the image
of the words is read back before the decoder sees them. -/
theorem decodeEncodeRoundTrip : Obligations.DecodeEncodeRoundTrip := by
  intro cfg i rest hcfg hwf
  have hwords := decode_encode hcfg hwf
  exact ⟨hwords, by simp [decodeBytes, encodeBytes, fromBytes_toBytes, hwords]⟩

end Sys2Proof.Machine
end

section
/-! PROOFS. The fields as ranges of the 128 bits: what a getter reads, what a setter writes, and that the fields of one
type share no bit (30_encoding.md R34; 40_framework.md R57, R62; 42_event_fields.md section 9). -/

namespace Sys2Proof.Machine

open Sys2Proof.Statements

/-! The bits of a record, numbered through its four words (00_scope.md R4). -/

/-- Bit `n` of the 128 bits of a record. -/
def bitAt (r : Raw) (n : Nat) : Bool := (r.w3 ++ r.w2 ++ r.w1 ++ r.w0).getLsbD n

/-- Bit `32 * w + k` is bit `k` of word `w`. -/
theorem bitAt_word (r : Raw) (w : Fin 4) {k : Nat} (hk : k < 32) : bitAt r (32 * w + k) = (wordAt r w).getLsbD k := by
  simp only [bitAt, BitVec.getLsbD_append]
  fin_cases w <;> simp only [wordAt] <;> grind

/-- Every bit of a record is a bit of one of its words. -/
theorem exists_word_of_lt {n : Nat} (hn : n < 128) : ∃ (w : Fin 4) (k : Nat), k < 32 ∧ n = 32 * w + k :=
  ⟨⟨n / 32, by omega⟩, n % 32, by omega, (Nat.div_add_mod n 32).symm⟩

/-- Records with the same 128 bits are equal (40_framework.md R61). -/
theorem eq_of_bitAt_eq {r r' : Raw} (h : ∀ n < 128, bitAt r n = bitAt r' n) : r = r' := by
  refine raw_ext r r' fun w => BitVec.eq_of_getLsbD_eq fun k hk => ?_
  rw [← bitAt_word r w hk, ← bitAt_word r' w hk]
  exact h _ (by omega)

/-- The bits of a record with one word replaced. -/
theorem bitAt_setWordAt (r : Raw) (u w : Fin 4) (x : Word) {k : Nat} (hk : k < 32) :
    bitAt (setWordAt r u x) (32 * w + k) = if w = u then x.getLsbD k else bitAt r (32 * w + k) := by
  rw [bitAt_word _ _ hk, bitAt_word _ _ hk]
  by_cases h : w = u
  · subst h
    simp
  · rw [wordAt_setWordAt_other _ _ _ _ h, if_neg h]

/-! The place of a field as a range of bits. -/

/-- The number of the lowest bit of a place. -/
def Place.base : Place → Nat
  | .bits w _ lo => 32 * w + lo
  | .pointer _ => 0
  | .notificationData => 8

/-- The number of bits of a place. -/
def Place.width : Place → Nat
  | .bits _ hi lo => hi - lo + 1
  | .pointer _ => 64
  | .notificationData => 56

/-- ALIGN of a place (44_link_contracts.md R153); 1 is no constraint. -/
def Place.align : Place → Nat
  | .pointer a => a
  | _ => 1

/-- Bit `n` of the record lies at the place. -/
abbrev Place.Covers (p : Place) (n : Nat) : Prop := p.base ≤ n ∧ n < p.base + p.width

/-- A field within one word is a range of its bits. -/
theorem fieldPlace_within_word {f : Field} {w : Fin 4} {hi lo : Nat} (h : fieldPlace f = .bits w hi lo) :
    lo ≤ hi ∧ hi < 32 := by
  cases f <;> cases h <;> decide

/-- The bits that lie at a field's place are those its range covers. -/
theorem placeHasBit_iff_covers (f : Field) (w : Fin 4) {k : Nat} (hk : k < 32) :
    placeHasBit (fieldPlace f) w k = true ↔ (fieldPlace f).Covers (32 * w + k) := by
  cases h : fieldPlace f with
  | bits u hi lo =>
    obtain ⟨hle, hlt⟩ := fieldPlace_within_word h
    simp only [placeHasBit, Place.Covers, Place.base, Place.width, Bool.and_eq_true, beq_iff_eq, decide_eq_true_eq]
    omega
  | pointer a =>
    simp only [placeHasBit, Place.Covers, Place.base, Place.width, Bool.or_eq_true, beq_iff_eq]
    omega
  | notificationData =>
    simp only [placeHasBit, Place.Covers, Place.base, Place.width, Bool.or_eq_true, Bool.and_eq_true, beq_iff_eq,
      decide_eq_true_eq]
    omega

theorem Field.mem_all (f : Field) : f ∈ Field.all := by cases f <;> decide

/-- Every field lies within the record and is handed out in at most 64 bits (30_encoding.md R44). -/
theorem fieldPlace_within_record (f : Field) :
    (fieldPlace f).base + (fieldPlace f).width ≤ 128 ∧ (fieldPlace f).width ≤ 64 := by
  cases f <;> decide

/-- No field holds the cycle bit or a bit of the tag. -/
theorem not_covers_cycle_or_tag {f : Field} {n : Nat} (h : (fieldPlace f).Covers n) :
    n ≠ 96 ∧ ¬ (106 ≤ n ∧ n ≤ 111) := by
  have hall : ∀ g ∈ Field.all, (fieldPlace g).base + (fieldPlace g).width ≤ 96 ∨
      (96 < (fieldPlace g).base ∧ (fieldPlace g).base + (fieldPlace g).width ≤ 106) ∨ 111 < (fieldPlace g).base := by
    decide
  have := hall f (Field.mem_all f)
  omega

/-- Two fields of one type share no bit (R34). -/
theorem not_covers_of_ne {f g : Field} (howner : g.owner = f.owner) (hne : g ≠ f) {n : Nat}
    (h : (fieldPlace f).Covers n) : ¬ (fieldPlace g).Covers n := by
  have hall : ∀ a ∈ Field.all, ∀ b ∈ Field.all, b.owner = a.owner → b ≠ a →
      (fieldPlace a).base + (fieldPlace a).width ≤ (fieldPlace b).base ∨
        (fieldPlace b).base + (fieldPlace b).width ≤ (fieldPlace a).base := by
    decide
  have := hall f (Field.mem_all f) g (Field.mem_all g) howner hne
  omega

/-! Reserved ranges. -/

/-- A reserved range shares no bit with the cycle bit nor, but for the low four bits of the CommandCompletion pointer
(R36), with a field of the variant. -/
theorem reserved_disjoint (cfg : Config) (v : EventVariant) :
    ∀ x ∈ reserved cfg v, (x.w = 3 → 0 < x.lo) ∧
      ∀ f ∈ Field.all, f.owner = v.toType →
        (32 * x.w.val + x.hi < (fieldPlace f).base ∨
          (fieldPlace f).base + (fieldPlace f).width ≤ 32 * x.w.val + x.lo) ∨
        (f = .commandCompletionCommandTrbPointer ∧ x.w = 0 ∧ x.hi ≤ 3) := by
  cases v with
  | mfindexWrap => cases hm : cfg.mfindexReserved <;> simp only [reserved, hm] <;> decide
  | _ => simp only [reserved]; decide

/-- A reserved bit is a bit of one of the variant's ranges. -/
theorem reservedHasBit_iff (cfg : Config) (v : EventVariant) (w : Fin 4) (k : Nat) :
    reservedHasBit cfg v w k = true ↔ ∃ x ∈ reserved cfg v, x.w = w ∧ x.lo ≤ k ∧ k ≤ x.hi := by
  simp [reservedHasBit, rangeHasBit]

/-- A reserved bit is neither the cycle bit nor a bit of the tag. -/
theorem reservedHasBit_spares_cycle_and_tag {cfg : Config} {v : EventVariant} {w : Fin 4} {k : Nat}
    (h : reservedHasBit cfg v w k = true) : ¬ (w = 3 ∧ (k = 0 ∨ (10 ≤ k ∧ k ≤ 15))) := by
  obtain ⟨x, hx, rfl, hlo, hhi⟩ := (reservedHasBit_iff cfg v w k).1 h
  obtain ⟨hcycle, -⟩ := reserved_disjoint cfg v x hx
  have htag := reserved_spares_tag cfg v x hx
  omega

/-- A reserved bit in a field of the variant is one of the low four of the CommandCompletion pointer (R36). -/
theorem reservedHasBit_of_covers {cfg : Config} {v : EventVariant} {f : Field} {w : Fin 4} {k : Nat}
    (howner : f.owner = v.toType) (hf : (fieldPlace f).Covers (32 * w + k)) (h : reservedHasBit cfg v w k = true) :
    f = .commandCompletionCommandTrbPointer ∧ w = 0 ∧ k ≤ 3 := by
  obtain ⟨x, hx, rfl, hlo, hhi⟩ := (reservedHasBit_iff cfg v w k).1 h
  obtain ⟨-, hfields⟩ := reserved_disjoint cfg v x hx
  obtain happart | ⟨rfl, hw, hhi'⟩ := hfields f (Field.mem_all f) howner
  · omega
  · exact ⟨rfl, hw, hhi.trans hhi'⟩

/-- Two ranges of RESERVED share no bit. -/
theorem reserved_pairwise_disjoint (cfg : Config) (v : EventVariant) :
    (reserved cfg v).Pairwise fun x y => x.w ≠ y.w ∨ x.hi < y.lo ∨ y.hi < x.lo := by
  cases v with
  | mfindexWrap => cases hm : cfg.mfindexReserved <;> simp only [reserved, hm] <;> decide
  | _ => simp only [reserved]; decide

/-- FIELDS and the table of 42_event_fields.md section 9 name the same bits. -/
theorem placeHasBit_eq_fieldHasBit (f : Field) (w : Fin 4) (k : Fin 32) :
    placeHasBit (fieldPlace f) w k = fieldHasBit f w k := by
  revert w k
  cases f <;> decide

/-- Settles O7: fields and reserved ranges are ranges of bits, and the tables give them disjoint ends. -/
theorem fieldsDoNotOverlap : Obligations.FieldsDoNotOverlap := by
  refine ⟨fun cfg v w k hk => ⟨fun f hf hbit => ?_, reservedHasBit_spares_cycle_and_tag⟩, fun cfg v => ?_,
    fun f w k hk => placeHasBit_eq_fieldHasBit f w ⟨k, hk⟩⟩
  · have hcovers := (placeHasBit_iff_covers f w hk).1 hbit
    refine ⟨?_, fun g hg hne => ?_, reservedHasBit_of_covers hf hcovers⟩
    · have := not_covers_cycle_or_tag hcovers
      omega
    · exact Bool.eq_false_iff.2 fun h =>
        not_covers_of_ne (hg.trans hf.symm) hne hcovers ((placeHasBit_iff_covers g w hk).1 h)
  · refine (reserved_pairwise_disjoint cfg v).imp fun {x y} hxy w k => ?_
    simp only [rangeHasBit, Bool.and_eq_true, beq_iff_eq, decide_eq_true_eq]
    rintro ⟨⟨rfl, hx⟩, hw, hy⟩
    obtain hne | happart := hxy
    · exact hne hw.symm
    · omega

/-! What a getter reads (R56, R128) and a setter writes (R57, R129). -/

/-- A getter reads the bits of its field, the lowest first, and zeros above them. -/
theorem getLsbD_readField (f : Field) (r : Raw) (n : Nat) :
    (readField f r).getLsbD n = (decide (n < (fieldPlace f).width) && bitAt r ((fieldPlace f).base + n)) := by
  cases h : fieldPlace f with
  | bits w hi lo =>
    obtain ⟨hle, hlt⟩ := fieldPlace_within_word h
    simp only [readField, h, getField, BitVec.getLsbD_setWidth, BitVec.getLsbD_extractLsb', Place.width, Place.base]
    by_cases hn : n < hi - lo + 1
    · rw [Nat.add_assoc, bitAt_word r w (by omega)]
      simp [hn, show n < 64 by omega]
    · simp [hn]
  | pointer a =>
    simp only [readField, h, getPtr_eq_append, bitAt, BitVec.getLsbD_append, Place.width, Place.base]
    grind
  | notificationData =>
    simp only [readField, h, getNotificationData_eq_append, bitAt, BitVec.getLsbD_setWidth, BitVec.getLsbD_append,
      BitVec.getLsbD_extractLsb', Place.width, Place.base]
    grind

/-- A getter depends on the bits of its field only. -/
theorem readField_congr {f : Field} {r r' : Raw} (h : ∀ n < 128, (fieldPlace f).Covers n → bitAt r' n = bitAt r n) :
    readField f r' = readField f r := by
  refine BitVec.eq_of_getLsbD_eq fun n _ => ?_
  obtain ⟨hrecord, -⟩ := fieldPlace_within_record f
  rw [getLsbD_readField, getLsbD_readField]
  by_cases hn : n < (fieldPlace f).width
  · rw [h _ (by omega) ⟨by omega, by omega⟩]
  · simp [hn]

/-- The record a setter writes when its contract holds. -/
def Place.write : Place → Raw → Nat → Raw
  | .bits w hi lo, r, v => setWordAt r w (writeBits (wordAt r w) hi lo v)
  | .pointer _, r, v => { r with w0 := BitVec.ofNat 32 v, w1 := BitVec.ofNat 32 (v / 2 ^ 32) }
  | .notificationData, r, v => { r with w0 := writeBits r.w0 31 8 v, w1 := BitVec.ofNat 32 (v / 2 ^ 24) }

/-- A setter checks the contract of its place, then writes (R57): the check does not look at the record. -/
theorem writeField_eq (f : Field) (r : Raw) (v : Nat) :
    writeField f r v =
      match violation (fieldPlace f).width (fieldPlace f).align v with
      | some c => .error c
      | none => .ok ((fieldPlace f).write r v) := by
  unfold writeField
  cases fieldPlace f <;> rfl

theorem writeField_eq_error_iff {f : Field} {r : Raw} {v : Nat} {c : FatalCause} :
    writeField f r v = .error c ↔ violation (fieldPlace f).width (fieldPlace f).align v = some c := by
  rw [writeField_eq]
  split <;> simp_all

theorem writeField_eq_ok_iff {f : Field} {r r' : Raw} {v : Nat} :
    writeField f r v = .ok r' ↔
      violation (fieldPlace f).width (fieldPlace f).align v = none ∧ (fieldPlace f).write r v = r' := by
  rw [writeField_eq]
  split <;> simp_all

/-- The contract of a place: the operand fits its width and is a multiple of its alignment (44_link_contracts.md R153 to
R155). -/
theorem violation_eq_none_iff (n a v : Nat) : violation n a v = none ↔ v < 2 ^ n ∧ v % a = 0 := by
  obtain ⟨h, e⟩ | ⟨-, h, e⟩ | ⟨h, h', e⟩ := violation_cases n a v
  · exact iff_of_false (by simp [e]) fun hv => absurd hv.1 (Nat.not_lt.2 h)
  · exact iff_of_false (by simp [e]) fun hv => h hv.2
  · exact iff_of_true e ⟨h, h'⟩

/-- The bits of the word of an operand that starts at bit `m`. -/
theorem getLsbD_ofNat_div (v : Nat) {m j k : Nat} (hk : k < 32) (hj : j = m + k) :
    (BitVec.ofNat 32 (v / 2 ^ m)).getLsbD k = v.testBit j := by
  simp only [BitVec.getLsbD_ofNat, Nat.testBit_div_two_pow, hk, hj, Nat.add_comm, decide_true, Bool.true_and]

/-- The bits after a write: the field's from the operand, every other as it was. -/
theorem bitAt_write (f : Field) (r : Raw) (v : Nat) {n : Nat} (hn : n < 128) :
    bitAt ((fieldPlace f).write r v) n =
      if (fieldPlace f).Covers n then v.testBit (n - (fieldPlace f).base) else bitAt r n := by
  obtain ⟨w, k, hk, rfl⟩ := exists_word_of_lt hn
  cases h : fieldPlace f with
  | bits u hi lo =>
    obtain ⟨hle, hlt⟩ := fieldPlace_within_word h
    simp only [Place.write, bitAt_setWordAt _ _ _ _ hk, getLsbD_writeBits _ _ _ _ _ hle hlt hk, Place.Covers,
      Place.base, Place.width, bitAt_word _ _ hk]
    grind
  | pointer a =>
    simp only [Place.write, bitAt_word _ _ hk, Place.Covers, Place.base, Place.width]
    match w with
    | 0 => rw [if_pos (by grind)]; simpa [wordAt] using getLsbD_ofNat_div v (m := 0) hk rfl
    | 1 => rw [if_pos (by grind)]; exact getLsbD_ofNat_div v (m := 32) hk (by grind)
    | 2 | 3 => rw [if_neg (by grind)]; rfl
  | notificationData =>
    simp only [Place.write, bitAt_word _ _ hk, Place.Covers, Place.base, Place.width]
    match w with
    | 0 =>
      simp only [wordAt, getLsbD_writeBits _ 31 8 _ _ (by decide) (by decide) hk]
      grind
    | 1 => rw [if_pos (by grind)]; exact getLsbD_ofNat_div v (m := 24) hk (by grind)
    | 2 | 3 => rw [if_neg (by grind)]; rfl

/-- Settles O25: the check is the violation of the contract, and the write sets the bits of the range from the
operand. -/
theorem genericFieldWrite : Obligations.GenericFieldWrite := by
  refine ⟨fun r w hi lo v hle hlt => ⟨fun hwide => ?_, fun hfits => ?_⟩,
    fun r v a => ⟨fun hwide => ?_, fun hfits hmis => ?_, fun hfits halign => ?_⟩⟩
  · obtain ⟨-, h⟩ | ⟨hv, -⟩ := setField_cases r w hi lo v
    · exact h
    · omega
  · obtain ⟨hv, -⟩ | ⟨-, h⟩ := setField_cases r w hi lo v
    · omega
    refine ⟨_, h, fun k hlo hhi => ?_, fun k hout => ?_, fun j hj => wordAt_setWordAt_other r w j _ hj⟩
    · rw [wordAt_setWordAt_same, getLsbD_writeBits _ _ _ _ _ hle hlt (by omega), if_pos ⟨hlo, hhi⟩]
    · rw [wordAt_setWordAt_same]
      by_cases hk : k < 32
      · rw [getLsbD_writeBits _ _ _ _ _ hle hlt hk, if_neg (by omega)]
      · rw [BitVec.getLsbD_of_ge _ _ (by omega), BitVec.getLsbD_of_ge _ _ (by omega)]
  · obtain ⟨-, h⟩ | ⟨hv, -⟩ | ⟨hv, -⟩ := setPtr_cases r v a
    · exact h
    · omega
    · omega
  · obtain ⟨hv, -⟩ | ⟨-, -, h⟩ | ⟨-, hv, -⟩ := setPtr_cases r v a
    · omega
    · exact h
    · exact absurd hv hmis
  · obtain ⟨hv, -⟩ | ⟨-, hv, -⟩ | ⟨-, -, h⟩ := setPtr_cases r v a
    · omega
    · exact absurd halign hv
    rw [h]
    have hhigh : BitVec.ofNat 32 (v / 2 ^ 32) = (BitVec.ofNat 64 v).extractLsb' 32 32 := by
      refine BitVec.eq_of_getLsbD_eq fun k hk => ?_
      rw [getLsbD_ofNat_div v hk rfl, BitVec.getLsbD_extractLsb', BitVec.getLsbD_ofNat]
      simp [hk, show 32 + k < 64 by omega]
    rw [hhigh]

/-! The read-after-write laws (R62). -/

/-- Law (a): the getter reads the operand back. -/
theorem readField_write_same (f : Field) (r : Raw) {v : Nat} (hv : v < 2 ^ (fieldPlace f).width) :
    readField f ((fieldPlace f).write r v) = BitVec.ofNat 64 v := by
  obtain ⟨hrecord, -⟩ := fieldPlace_within_record f
  refine BitVec.eq_of_getLsbD_eq fun n hn => ?_
  rw [getLsbD_readField, BitVec.getLsbD_ofNat]
  by_cases hw : n < (fieldPlace f).width
  · rw [bitAt_write f r v (by omega), if_pos ⟨by omega, by omega⟩]
    simp [hw, hn]
  · have hzero : v.testBit n = false :=
      Nat.testBit_lt_two_pow (hv.trans_le (Nat.pow_le_pow_right (by decide) (by omega)))
    simp [hw, hzero]

/-- Law (b): another field of the type reads as before. -/
theorem readField_write_other {f g : Field} (howner : g.owner = f.owner) (hne : g ≠ f) (r : Raw) (v : Nat) :
    readField g ((fieldPlace f).write r v) = readField g r :=
  readField_congr fun _ hn hg => by
    rw [bitAt_write f r v hn, if_neg fun hf => not_covers_of_ne howner hne hf hg]

/-- Law (c): the last write wins. -/
theorem write_write_same (f : Field) (r : Raw) (v u : Nat) :
    (fieldPlace f).write ((fieldPlace f).write r v) u = (fieldPlace f).write r u :=
  eq_of_bitAt_eq fun n hn => by
    simp only [bitAt_write f _ _ hn]
    split <;> rfl

/-- Law (d): writes to different fields of a type commute. -/
theorem write_write_comm {f g : Field} (howner : g.owner = f.owner) (hne : g ≠ f) (r : Raw) (v u : Nat) :
    (fieldPlace g).write ((fieldPlace f).write r v) u = (fieldPlace f).write ((fieldPlace g).write r u) v :=
  eq_of_bitAt_eq fun n hn => by
    have hdisjoint : (fieldPlace f).Covers n → ¬ (fieldPlace g).Covers n := not_covers_of_ne howner hne
    simp only [bitAt_write f _ _ hn, bitAt_write g _ _ hn]
    grind

/-- Law (e): writing back what was read changes nothing. -/
theorem write_readField (f : Field) (r : Raw) : (fieldPlace f).write r (readField f r).toNat = r :=
  eq_of_bitAt_eq fun n hn => by
    rw [bitAt_write f _ _ hn]
    split
    · rename_i hcovers
      rw [BitVec.testBit_toNat, getLsbD_readField, Nat.add_sub_cancel' hcovers.1, decide_eq_true (by omega),
        Bool.true_and]
    · rfl

/-- What a getter reads fits the field. -/
theorem toNat_readField_lt (f : Field) (r : Raw) : (readField f r).toNat < 2 ^ (fieldPlace f).width := by
  refine Nat.lt_pow_two_of_testBit _ fun n hn => ?_
  rw [BitVec.testBit_toNat, getLsbD_readField, decide_eq_false (by omega), Bool.false_and]

/-- The cycle bit is bit 96. -/
theorem getCycle_congr {r r' : Raw} (h : bitAt r' 96 = bitAt r 96) : getCycle r' = getCycle r := by
  have hword := (bitAt_word r' 3 (k := 0) (by decide)).symm.trans (h.trans (bitAt_word r 3 (k := 0) (by decide)))
  refine BitVec.eq_of_getLsbD_eq fun k hk => ?_
  obtain rfl : k = 0 := by omega
  rw [getCycle, getCycle, BitVec.getLsbD_extractLsb', BitVec.getLsbD_extractLsb']
  exact congrArg _ hword

/-- The tag is bits 106 to 111. -/
theorem tagOf_congr {r r' : Raw} (h : ∀ n, 106 ≤ n → n ≤ 111 → bitAt r' n = bitAt r n) : tagOf r' = tagOf r := by
  refine BitVec.eq_of_getLsbD_eq fun k hk => ?_
  have hword := (bitAt_word r' 3 (k := 10 + k) (by omega)).symm.trans
    ((h _ (by grind) (by grind)).trans (bitAt_word r 3 (k := 10 + k) (by omega)))
  rw [tagOf, tagOf, BitVec.getLsbD_extractLsb', BitVec.getLsbD_extractLsb']
  exact congrArg _ hword

/-- A setter leaves the cycle bit. -/
theorem getCycle_write (f : Field) (r : Raw) (v : Nat) : getCycle ((fieldPlace f).write r v) = getCycle r :=
  getCycle_congr (by rw [bitAt_write f r v (by decide), if_neg fun h => (not_covers_cycle_or_tag h).1 rfl])

/-- A setter leaves the tag. -/
theorem tagOf_write (f : Field) (r : Raw) (v : Nat) : tagOf ((fieldPlace f).write r v) = tagOf r :=
  tagOf_congr fun n hlo hhi => by
    rw [bitAt_write f r v (by omega), if_neg fun h => (not_covers_cycle_or_tag h).2 ⟨hlo, hhi⟩]

/-- Only the two aligned pointers have an alignment (R153). -/
theorem fieldPlace_align (f : Field) :
    ((f = .commandCompletionCommandTrbPointer ∨ f = .linkRingSegmentPointer) ∧ fieldPlace f = .pointer 16) ∨
    ((f ≠ .commandCompletionCommandTrbPointer ∧ f ≠ .linkRingSegmentPointer) ∧ (fieldPlace f).align = 1) := by
  cases f <;> decide

/-- A pointer is a multiple of 16 exactly when the low four bits of `W[0]` are zero. -/
theorem toNat_getPtr_mod_16 (r : Raw) : (getPtr r).toNat % 16 = 0 ↔ r.w0.extractLsb' 0 4 = 0 := by
  rw [toNat_getPtr, ← BitVec.toNat_inj, BitVec.extractLsb'_toNat]
  simp only [Nat.shiftRight_zero, BitVec.ofNat_eq_ofNat, BitVec.toNat_ofNat]
  omega

/-- The operand that was read back is admitted, unless the pointer is aligned and its low bits dirty. -/
theorem readField_admitted_iff (f : Field) (r : Raw) :
    (readField f r).toNat % (fieldPlace f).align = 0 ↔
      (f ≠ .commandCompletionCommandTrbPointer ∧ f ≠ .linkRingSegmentPointer) ∨ r.w0.extractLsb' 0 4 = 0 := by
  obtain ⟨hf, hplace⟩ | ⟨hf, halign⟩ := fieldPlace_align f
  · have hread : readField f r = getPtr r := by simp only [readField, hplace]
    rw [hread, hplace, Place.align, toNat_getPtr_mod_16]
    tauto
  · simp [halign, Nat.mod_one, hf]

/-- Settles O28: the laws are those of the writes, and the checks do not look at the record. -/
theorem readAfterWrite : Obligations.ReadAfterWrite := by
  refine ⟨fun cfg f r r1 v h => ?_, fun f g r r1 v howner hne h => ?_,
    fun f r => ⟨fun hclean => ?_, fun hf hdirty => ?_⟩⟩
  · obtain ⟨hok, rfl⟩ := writeField_eq_ok_iff.1 h
    have hread := readField_write_same f r ((violation_eq_none_iff _ _ _).1 hok).1
    refine ⟨hread, fun hcode => ?_, getCycle_write f r v, fun v2 => ?_⟩
    · simp only [fieldResponse, hcode, hread, BitVec.setWidth_ofNat_of_le (show 8 ≤ 64 by decide)]
    · simp only [writeField_eq, write_write_same]
  · obtain ⟨hok, rfl⟩ := writeField_eq_ok_iff.1 h
    refine ⟨readField_write_other howner hne r v, fun u r2 hu => ?_⟩
    obtain ⟨hok', rfl⟩ := writeField_eq_ok_iff.1 hu
    exact ⟨_, writeField_eq_ok_iff.2 ⟨hok', rfl⟩,
      writeField_eq_ok_iff.2 ⟨hok, (write_write_comm howner hne r v u).symm⟩⟩
  · exact writeField_eq_ok_iff.2 ⟨(violation_eq_none_iff _ _ _).2
      ⟨toNat_readField_lt f r, (readField_admitted_iff f r).2 hclean⟩, write_readField f r⟩
  · have hmis : ¬ (readField f r).toNat % (fieldPlace f).align = 0 := by
      rw [readField_admitted_iff]
      tauto
    have hfits := toNat_readField_lt f r
    obtain ⟨hwide, -⟩ | ⟨-, -, hv⟩ | ⟨-, halign, -⟩ :=
      violation_cases (fieldPlace f).width (fieldPlace f).align (readField f r).toNat
    · omega
    · exact writeField_eq_error_iff.2 hv
    · exact absurd halign hmis

/-! The getters and the decoded records. -/

/-- Settles O35: every record is a view of its words, and of any words a getter reads the bits the view puts in its
field. -/
theorem gettersReadDecodedFields : Obligations.GettersReadDecodedFields := by
  refine ⟨fun r => ?_, fun r => ?_, fun r => ?_, fun r => ?_, fun r => ?_, fun r => ?_, fun r => ?_, fun r => ?_,
    fun r => ?_⟩
  · obtain ⟨w, rfl⟩ : ∃ w, TransferEventRec.ofRaw w = r := ⟨_, TransferEventRec.ofRaw_toRaw r⟩
    rw [TransferEventRec.toRaw_ofRaw]
    exact ⟨getPtr_eq_append w, rfl, rfl, rfl, rfl, rfl⟩
  · obtain ⟨w, rfl⟩ : ∃ w, CommandCompletionRec.ofRaw w = r := ⟨_, CommandCompletionRec.ofRaw_toRaw r⟩
    rw [CommandCompletionRec.toRaw_ofRaw]
    exact ⟨getPtr_eq_append w, rfl, rfl, rfl, rfl⟩
  · obtain ⟨w, rfl⟩ : ∃ w, PortStatusChangeRec.ofRaw w = r := ⟨_, PortStatusChangeRec.ofRaw_toRaw r⟩
    rw [PortStatusChangeRec.toRaw_ofRaw]
    exact ⟨rfl, rfl⟩
  · obtain ⟨w, rfl⟩ : ∃ w, BandwidthRequestRec.ofRaw w = r := ⟨_, BandwidthRequestRec.ofRaw_toRaw r⟩
    rw [BandwidthRequestRec.toRaw_ofRaw]
    exact ⟨rfl, rfl⟩
  · obtain ⟨w, rfl⟩ : ∃ w, DoorbellRec.ofRaw w = r := ⟨_, DoorbellRec.ofRaw_toRaw r⟩
    rw [DoorbellRec.toRaw_ofRaw]
    exact ⟨rfl, rfl⟩
  · obtain ⟨w, rfl⟩ : ∃ w, HostControllerRec.ofRaw w = r := ⟨_, HostControllerRec.ofRaw_toRaw r⟩
    rw [HostControllerRec.toRaw_ofRaw]
    exact rfl
  · obtain ⟨w, rfl⟩ : ∃ w, DeviceNotificationRec.ofRaw w = r := ⟨_, DeviceNotificationRec.ofRaw_toRaw r⟩
    rw [DeviceNotificationRec.toRaw_ofRaw]
    exact ⟨rfl, getNotificationData_eq_append w, rfl, rfl⟩
  · obtain ⟨w, rfl⟩ : ∃ w, MfindexWrapRec.ofRaw w = r := ⟨_, MfindexWrapRec.ofRaw_toRaw r⟩
    rw [MfindexWrapRec.toRaw_ofRaw]
    exact rfl
  · obtain ⟨w, rfl⟩ : ∃ w, LinkRec.ofRaw w = r := ⟨_, LinkRec.ofRaw_toRaw r⟩
    rw [LinkRec.toRaw_ofRaw]
    exact getPtr_eq_append w

end Sys2Proof.Machine
end

section
/-! PROOFS. Validation and classification (41_validate_classify.md): the validator against the decoder (R70, R79), TRY of
the last four variants (R75 to R78), the cycle bit (R85), what setters keep (R59, R86) and the reserved bits (R87). -/

namespace Sys2Proof.Machine

open Sys2Proof.Statements

/-! The validator by its bits (R70). -/

/-- A record is valid when it holds the variant's tag and every reserved bit is zero. -/
theorem valid_iff_bits (cfg : Config) (v : EventVariant) (r : Raw) :
    valid cfg v r = true ↔ cfg.typeTable v.toType = some (tagOf r) ∧
      ∀ (w : Fin 4) (k : Nat), reservedHasBit cfg v w k = true → (wordAt r w).getLsbD k = false := by
  constructor
  · exact fun hv => ⟨tagOf_of_valid cfg v r hv, fun w k hk => getLsbD_of_valid hv hk⟩
  · rintro ⟨htag, hbits⟩
    refine (valid_iff_reserved cfg v r).2 ⟨htag, fun x hx => ?_⟩
    exact (rangeClear_iff r x (reserved_within_word cfg v x hx).1).2 fun k hlo hhi =>
      hbits x.w k ((reservedHasBit_iff cfg v x.w k).2 ⟨x, hx, rfl, hlo, hhi⟩)

/-- Validity depends on the tag and the reserved bits only. -/
theorem valid_congr {cfg : Config} {v : EventVariant} {r r' : Raw} (htag : tagOf r' = tagOf r)
    (hbits : ∀ (w : Fin 4) (k : Nat), reservedHasBit cfg v w k = true →
      (wordAt r' w).getLsbD k = (wordAt r w).getLsbD k) : valid cfg v r' = valid cfg v r := by
  rw [Bool.eq_iff_iff, valid_iff_bits, valid_iff_bits, htag]
  refine and_congr_right fun _ => forall₃_congr fun w k hk => ?_
  rw [hbits w k hk]

/-- A reserved bit is a bit of a 32-bit word. -/
theorem lt_of_reservedHasBit {cfg : Config} {v : EventVariant} {w : Fin 4} {k : Nat}
    (h : reservedHasBit cfg v w k = true) : k < 32 := by
  obtain ⟨x, hx, -, -, hhi⟩ := (reservedHasBit_iff cfg v w k).1 h
  exact hhi.trans_lt (reserved_within_word cfg v x hx).2

/-! The validator and the decoder (R79 corner case (a); log 16). -/

/-- A slice is zero exactly when its two parts are. -/
theorem extractLsb'_eq_zero_split (x : Word) (lo m n : Nat) :
    x.extractLsb' lo (m + n) = 0 ↔ x.extractLsb' lo m = 0 ∧ x.extractLsb' (lo + m) n = 0 := by
  simp only [extractLsb'_eq_zero_iff]
  constructor
  · exact fun h => ⟨fun k hk => h k (by omega), fun k hk => Nat.add_assoc lo m k ▸ h (m + k) (by omega)⟩
  · rintro ⟨hlow, hhigh⟩ k hk
    by_cases hm : k < m
    · exact hlow k hm
    · have hbit := hhigh (k - m) (by omega)
      rwa [Nat.add_assoc, Nat.add_sub_cancel' (Nat.le_of_not_lt hm)] at hbit

/-- The low bits of two words put together are those of the low word. -/
theorem extractLsb'_append_low (x y : Word) : (x ++ y).extractLsb' 0 4 = y.extractLsb' 0 4 := by
  ext k hk
  simp only [BitVec.getElem_extractLsb', BitVec.getLsbD_append]
  grind

/-- RESERVED and the reserved ranges of the format partition name the same bits. -/
theorem all_rangeClear_iff_reservedClear (cfg : Config) (v : EventVariant) (r : Raw) :
    (reserved cfg v).all (rangeClear r) = true ↔ (Instr.view v.toType r).reservedClear cfg = true := by
  cases v with
  | mfindexWrap =>
    cases hm : cfg.mfindexReserved with
    | literal =>
      simp [reserved, hm, rangeClear, wordAt, EventVariant.toType, Instr.view, Instr.reservedClear,
        MfindexWrapRec.ofRaw]
      tauto
    | strict =>
      have hw0 := extractLsb'_eq_zero_split r.w0 0 4 28
      have hw3 := extractLsb'_eq_zero_split r.w3 16 8 8
      simp only [Nat.reduceAdd, BitVec.extractLsb'_eq_self] at hw0 hw3
      simp [reserved, hm, allButCodeReserved, rangeClear, wordAt, EventVariant.toType, Instr.view, Instr.reservedClear,
        MfindexWrapRec.ofRaw, ← BitVec.ofNat_eq_ofNat, hw0, hw3]
      tauto
  | _ =>
    simp [reserved, allButCodeReserved, rangeClear, wordAt, EventVariant.toType, Instr.view, Instr.reservedClear,
      TransferEventRec.ofRaw, CommandCompletionRec.ofRaw, PortStatusChangeRec.ofRaw, BandwidthRequestRec.ofRaw,
      DoorbellRec.ofRaw, HostControllerRec.ofRaw, DeviceNotificationRec.ofRaw, extractLsb'_append_low] <;>
    tauto

theorem valid_eq_wellFormed (cfg : Config) (v : EventVariant) (r : Raw) :
    valid cfg v r = (Instr.view v.toType r).wellFormed cfg := by
  rw [valid, Instr.wellFormed, type_view, tagBits_view, Bool.eq_iff_iff.2 (all_rangeClear_iff_reservedClear cfg v r)]

/-- Settles O8: both ask for the tag first, and the two tables name the same reserved bits. -/
theorem validIffViewWellFormed : Obligations.ValidIffViewWellFormed := valid_eq_wellFormed

/-- A name that is an event variant's is the name of that variant. -/
theorem eq_toType_of_event? {t : RecType} {v : EventVariant} (h : t.event? = some v) : t = v.toType := by
  cases t <;> cases h <;> rfl

/-- The decoder gives an event record exactly when the record is valid for its variant. -/
theorem decode_eq_event_iff {cfg : Config} (hcfg : cfg.Admissible) (v : EventVariant) (w : Raw) :
    decode cfg w = .ok (Instr.view v.toType w) ↔ valid cfg v w = true := by
  rw [valid_eq_wellFormed]
  constructor
  · intro h
    obtain ⟨-, -, -, hwf⟩ := decode_eq_view cfg w _ h
    exact hwf
  · exact decode_of_wellFormed hcfg

/-- CLASSIFY accepts a record as `v` exactly when it is valid for `v`. -/
theorem classify_eq_ok_iff {cfg : Config} (hcfg : cfg.Admissible) (v : EventVariant) (w : Raw) :
    classify cfg w = .ok (v, w) ↔ valid cfg v w = true := by
  refine ⟨fun h => ?_, classify_of_valid hcfg⟩
  obtain ⟨u, -, hu, hm⟩ | ⟨-, hm⟩ := firstMatch_cases cfg w eventOrder
  · cases hm.symm.trans h
    exact hu
  · cases hm.symm.trans h

/-- CLASSIFY hands a record back exactly when it is valid for no variant. -/
theorem classify_eq_error_iff (cfg : Config) (w : Raw) :
    classify cfg w = .error w ↔ ∀ v, valid cfg v w = false := by
  refine ⟨fun h => ?_, classify_of_not_valid⟩
  obtain ⟨u, -, -, hm⟩ | ⟨hnone, -⟩ := firstMatch_cases cfg w eventOrder
  · cases hm.symm.trans h
  · exact fun v => hnone v (mem_eventOrder v)

/-- Settles O13: CLASSIFY and the decoder both accept exactly the valid records. -/
theorem classifyIsDecodeToAnEvent : Obligations.ClassifyIsDecodeToAnEvent := by
  intro cfg w hcfg
  refine ⟨fun v => (classify_eq_ok_iff hcfg v w).trans (decode_eq_event_iff hcfg v w).symm, ?_⟩
  rw [classify_eq_error_iff]
  constructor
  · intro hnone i hi
    obtain ⟨t, -, rfl, -⟩ := decode_eq_view cfg w i hi
    rw [type_view]
    cases hevent : t.event? with
    | none => rfl
    | some v =>
      obtain rfl := eq_toType_of_event? hevent
      exact absurd ((decode_eq_event_iff hcfg v w).1 hi) (by simp [hnone v])
  · intro h v
    refine Bool.eq_false_iff.2 fun hv => ?_
    simpa using h _ ((decode_eq_event_iff hcfg v w).2 hv)

/-! TRY of the last four variants (R75 to R78). -/

/-- An operation whose effect is the response `x` answers `x` in the instance configured with `cfg`. -/
theorem typeOpAnswersWith_of_typedEffect {cfg : Config} {i : Instr} {op : TypeOp} {x : Response} {tag : BitVec 6}
    (ht : cfg.typeTable i.type = some tag) (h : typedEffect cfg i.type tag (encode i) op = .respond x) :
    typeOpAnswersWith cfg i op x := by
  intro s t w hclear
  rw [execWith_onType, typeEffect, ht]
  simp only [h]
  rw [perform_respond _ _ _ (by simpa using hclear), complete_present]

/-- Settles O11: at the default tags, and at the configured one under STRICT, the validator word by word is what each
rule prints. -/
theorem tryLastFourVariants : Obligations.TryLastFourVariants := by
  refine ⟨fun r => triesBy_of_valid_iff rfl ((valid_iff_words (v := .doorbell) rfl _).trans ?_),
    fun r => triesBy_of_valid_iff rfl ((valid_iff_words (v := .hostController) rfl _).trans ?_),
    fun r => triesBy_of_valid_iff rfl ((valid_iff_words (v := .deviceNotification) rfl _).trans ?_),
    fun r => triesBy_of_valid_iff rfl ((valid_iff_words (v := .mfindexWrap) rfl _).trans ?_),
    fun cfg r hstrict ht => ?_⟩
  case refine_5 =>
    intro w p
    have hvalid : valid cfg .mfindexWrap w = true ↔ p := (valid_iff_words (v := .mfindexWrap) ht w).trans (by
      simp [resMask, hstrict, p])
    refine ⟨fun hp => typeOpAnswersWith_of_typedEffect ht ?_, fun hp => typeOpAnswersWith_of_typedEffect ht ?_⟩
    · have hv := hvalid.2 hp
      simp [typedEffect, Instr.type, RecType.event?, tryV, hv, w]
    · have hv := mt hvalid.1 hp
      simp [typedEffect, Instr.type, RecType.event?, tryV, hv, w]
  all_goals simp [resMask, Config.default]

/-! The order of trial (R80). -/

/-- No record is valid for two variants. -/
theorem eq_of_valid {cfg : Config} (hcfg : cfg.Admissible) {a b : EventVariant} {r : Raw} (ha : valid cfg a r = true)
    (hb : valid cfg b r = true) : a = b :=
  EventVariant.toType_injective a b (toType_eq_of_valid hcfg (tagOf_of_valid cfg b r hb) ha)

/-- Trying the variants in any order that holds them all is CLASSIFY. -/
theorem firstMatch_eq_classify {cfg : Config} (hcfg : cfg.Admissible) {order : List EventVariant} (w : Raw)
    (horder : ∀ v, v ∈ order) : firstMatch cfg w order = classify cfg w := by
  obtain ⟨v, -, hv, hm⟩ | ⟨hnone, hm⟩ := firstMatch_cases cfg w order
  · rw [hm, classify_of_valid hcfg hv]
  · rw [hm, classify_of_not_valid fun v => hnone v (horder v)]

/-- Settles O14: a record is valid only as the variant its tag names, and a new record is. -/
theorem eventTagsAreDisjoint : Obligations.EventTagsAreDisjoint := by
  intro cfg hcfg
  refine ⟨fun a b r hne ⟨ha, hb⟩ => hne (eq_of_valid hcfg ha hb), fun a b tag ht hne => ?_, fun a tag ht => ?_,
    fun order w => firstMatch_eq_classify hcfg w⟩
  · have hb := mt (valid_newRecord_iff hcfg (u := b) ht).1 hne.symm
    simp [tryV, hb]
  · simp [tryV, valid_newRecord ht]

/-! The cycle bit (R85). -/

/-- SET.C changes bit 96 and no other. -/
theorem bitAt_setCycle (r : Raw) (b : BitVec 1) {n : Nat} (hn : n < 128) (hne : n ≠ 96) :
    bitAt (setCycle r b) n = bitAt r n := by
  obtain ⟨w, k, hk, rfl⟩ := exists_word_of_lt hn
  have hset : setCycle r b = setWordAt r 3 (writeBits (wordAt r 3) 0 0 b.toNat) := rfl
  rw [hset, bitAt_setWordAt _ _ _ _ hk, getLsbD_writeBits _ _ _ _ _ (by decide) (by decide) hk]
  split
  · rename_i h
    subst h
    rw [if_neg (by grind), bitAt_word _ _ hk]
  · rfl

theorem tagOf_setCycle (r : Raw) (b : BitVec 1) : tagOf (setCycle r b) = tagOf r :=
  tagOf_congr fun n _ _ => bitAt_setCycle r b (by omega) (by omega)

theorem valid_setCycle (cfg : Config) (v : EventVariant) (r : Raw) (b : BitVec 1) :
    valid cfg v (setCycle r b) = valid cfg v r :=
  valid_congr (tagOf_setCycle r b) fun w k hk => by
    have hlt := lt_of_reservedHasBit hk
    have hspares := reservedHasBit_spares_cycle_and_tag hk
    rw [← bitAt_word _ w hlt, ← bitAt_word _ w hlt]
    exact bitAt_setCycle r b (by omega) (by omega)

theorem readField_setCycle (f : Field) (r : Raw) (b : BitVec 1) : readField f (setCycle r b) = readField f r :=
  readField_congr fun _ hn hf => bitAt_setCycle r b hn (not_covers_cycle_or_tag hf).1

/-- Trying the variants is looking for the first valid one, and the words come back either way. -/
theorem firstMatch_eq_find? (cfg : Config) (w : Raw) (order : List EventVariant) :
    firstMatch cfg w order =
      match order.find? (valid cfg · w) with
      | some v => .ok (v, w)
      | none => .error w := by
  induction order with
  | nil => rfl
  | cons v rest ih =>
    obtain ⟨hv, ht⟩ | ⟨hv, ht⟩ := tryV_cases cfg v w
    · simp [firstMatch, ht, hv]
    · simp [firstMatch, ht, hv, ih]

/-- Settles O15: validity, and so the first valid variant, and the fields do not depend on the cycle bit. -/
theorem cycleBitIndependence : Obligations.CycleBitIndependence := by
  intro cfg r b
  have hfind : eventOrder.find? (valid cfg · (setCycle r b)) = eventOrder.find? (valid cfg · r) := by
    simp only [valid_setCycle]
  refine ⟨fun v => valid_setCycle cfg v r b, fun v => ?_, ?_, fun f => ?_⟩
  · rw [classify, classify, firstMatch_eq_find?, firstMatch_eq_find?, hfind]
    split <;> simp
  · rw [classify, classify, firstMatch_eq_find?, firstMatch_eq_find?, hfind]
    split <;> simp
  · simp only [fieldResponse, readField_setCycle]

/-! What setters keep (R59, R86). -/

/-- Outside its field a setter changes no bit. -/
theorem getLsbD_write_of_not_mem (f : Field) (r : Raw) (v : Nat) {w : Fin 4} {k : Nat}
    (h : fieldHasBit f w k = false) :
    (wordAt ((fieldPlace f).write r v) w).getLsbD k = (wordAt r w).getLsbD k := by
  by_cases hk : k < 32
  · have hplace : ¬ (fieldPlace f).Covers (32 * w + k) := by
      rw [← placeHasBit_iff_covers f w hk, placeHasBit_eq_fieldHasBit f w ⟨k, hk⟩, h]
      decide
    rw [← bitAt_word _ w hk, ← bitAt_word _ w hk, bitAt_write f r v (by omega), if_neg hplace]
  · rw [BitVec.getLsbD_of_ge _ _ (by omega), BitVec.getLsbD_of_ge _ _ (by omega)]

/-- A setter keeps validity for its variant, but for the CommandCompletion pointer. -/
theorem valid_write_of_ne {cfg : Config} {f : Field} {u : EventVariant} (howner : f.owner = u.toType)
    (hne : f ≠ .commandCompletionCommandTrbPointer) (r : Raw) (v : Nat) :
    valid cfg u ((fieldPlace f).write r v) = valid cfg u r :=
  valid_congr (tagOf_write f r v) fun w k hk => by
    have hlt := lt_of_reservedHasBit hk
    rw [← bitAt_word _ w hlt, ← bitAt_word _ w hlt, bitAt_write f r v (by omega),
      if_neg fun hcovers => hne (reservedHasBit_of_covers howner hcovers hk).1]

/-- The record with `W[0][3:0]` cleaned. -/
def cleaned (r : Raw) : Raw := { r with w0 := r.w0 &&& 0xFFFFFFF0 }

theorem getLsbD_and_lowMask (x : Word) {k : Nat} (hk : k < 32) :
    (x &&& 0xFFFFFFF0).getLsbD k = (x.getLsbD k && decide (4 ≤ k)) := by
  have hmask := getLsbD_bitMask 31 4 k (by decide) (by decide)
  rw [BitVec.getLsbD_and, show (0xFFFFFFF0 : Word) = bitMask 31 4 by decide, hmask]
  simp [Nat.le_of_lt_succ hk]

/-- A record with clean low bits is its own cleaned one. -/
theorem cleaned_of_clean {r : Raw} (h : r.w0.extractLsb' 0 4 = 0) : cleaned r = r := by
  have hbits := (extractLsb'_eq_zero_iff r.w0 0 4).1 h
  have hw0 : r.w0 &&& 0xFFFFFFF0 = r.w0 := by
    refine BitVec.eq_of_getLsbD_eq fun k hk => ?_
    rw [getLsbD_and_lowMask _ hk]
    by_cases hlow : k < 4
    · have hbit := hbits k hlow
      rw [Nat.zero_add] at hbit
      rw [hbit, Bool.false_and]
    · simp [Nat.le_of_not_lt hlow]
  rw [cleaned, hw0]

/-- A multiple of 16 written as the CommandCompletion pointer leaves the low bits clean. -/
theorem low_write_pointer (r : Raw) {v : Nat} (hv : v % 16 = 0) :
    ((fieldPlace .commandCompletionCommandTrbPointer).write r v).w0.extractLsb' 0 4 = 0 := by
  change (BitVec.ofNat 32 v).extractLsb' 0 4 = 0
  rw [← BitVec.toNat_inj, BitVec.extractLsb'_toNat]
  simp only [Nat.shiftRight_zero, BitVec.ofNat_eq_ofNat, BitVec.toNat_ofNat]
  omega

/-- R59's exception: the CommandCompletion pointer setter cleans the low bits, and is otherwise no different. -/
theorem valid_write_pointer (cfg : Config) {r : Raw} {v : Nat} (hv : v % 16 = 0) :
    valid cfg .commandCompletion ((fieldPlace .commandCompletionCommandTrbPointer).write r v) =
      valid cfg .commandCompletion (cleaned r) :=
  valid_congr (tagOf_write _ r v) fun w k hk => by
    have hlt := lt_of_reservedHasBit hk
    by_cases hcovers : (fieldPlace .commandCompletionCommandTrbPointer).Covers (32 * w + k)
    · obtain ⟨-, rfl, hk3⟩ := reservedHasBit_of_covers rfl hcovers hk
      have hlow := (extractLsb'_eq_zero_iff _ 0 4).1 (low_write_pointer r hv) k (by omega)
      rw [Nat.zero_add] at hlow
      exact hlow.trans ((getLsbD_and_lowMask r.w0 hlt).trans (by rw [decide_eq_false (by omega), Bool.and_false])).symm
    · rw [← bitAt_word _ w hlt, bitAt_write _ r v (by omega), if_neg hcovers, bitAt_word _ w hlt]
      match w with
      | 0 => exact absurd ((placeHasBit_iff_covers _ 0 hlt).1 rfl) hcovers
      | 1 | 2 | 3 => rfl

/-- Settles O27: a write keeps every bit outside its field, and reserved bits lie outside but for R59's exception. -/
theorem setterFrameLaw : Obligations.SetterFrameLaw := by
  intro cfg f r r' v h
  obtain ⟨hok, rfl⟩ := writeField_eq_ok_iff.1 h
  refine ⟨fun w k hk => getLsbD_write_of_not_mem f r v hk, tagOf_write f r v, getCycle_write f r v,
    fun u howner => ?_⟩
  by_cases hf : f = .commandCompletionCommandTrbPointer
  · subst hf
    have hv : v % 16 = 0 := ((violation_eq_none_iff _ _ _).1 hok).2
    obtain rfl := EventVariant.toType_injective .commandCompletion u howner
    refine ⟨fun hclean => ?_, fun _ => ⟨low_write_pointer r hv, valid_write_pointer cfg hv⟩⟩
    rw [valid_write_pointer cfg hv, cleaned_of_clean (hclean.resolve_left (by simp))]
  · exact ⟨fun _ => valid_write_of_ne howner hf r v, fun h => absurd h hf⟩

/-- A valid CommandCompletion record has clean low bits (R36). -/
theorem low_of_valid {cfg : Config} {r : Raw} (h : valid cfg .commandCompletion r = true) :
    r.w0.extractLsb' 0 4 = 0 := by
  obtain ⟨-, hclear⟩ := (valid_iff_reserved cfg _ r).1 h
  simpa [rangeClear, wordAt] using hclear ⟨0, 3, 0⟩ (by simp [reserved])

/-- A setter of the variant keeps its records valid (R86's step). -/
theorem valid_of_apply {cfg : Config} {v : EventVariant} {call : SetterCall} {r r' : Raw}
    (happlies : SetterCall.appliesTo v.toType call = true) (hv : valid cfg v r = true)
    (happly : SetterCall.apply call r = .ok r') : valid cfg v r' = true := by
  cases call with
  | cycle b =>
    cases happly
    rw [valid_setCycle, hv]
  | field f x =>
    obtain ⟨-, -, -, hvalid⟩ := setterFrameLaw cfg f r r' x.toNat happly
    have howner : f.owner = v.toType := by simpa [SetterCall.appliesTo] using happlies
    rw [(hvalid v howner).1 ?_, hv]
    by_cases hf : f = .commandCompletionCommandTrbPointer
    · subst hf
      obtain rfl := EventVariant.toType_injective .commandCompletion v howner
      exact .inr (low_of_valid hv)
    · exact .inl hf

/-- A chain of setters of the variant keeps its records valid. -/
theorem valid_of_chain {cfg : Config} {v : EventVariant} {calls : List SetterCall} {r r' : Raw}
    (hcalls : settersOf v calls) (hv : valid cfg v r = true) (hchain : chain calls r = .ok r') :
    valid cfg v r' = true := by
  induction calls generalizing r with
  | nil =>
    cases hchain
    exact hv
  | cons call rest ih =>
    cases happly : SetterCall.apply call r with
    | ok r1 =>
      rw [chain, happly] at hchain
      exact ih (fun c hc => hcalls c (by simp [hc])) (valid_of_apply (hcalls call (by simp)) hv happly) hchain
    | error c =>
      rw [chain, happly] at hchain
      cases hchain

/-- Settles O16: a new record is valid, each setter keeps it so, and CLASSIFY accepts what is valid. -/
theorem constructedRecordsClassify : Obligations.ConstructedRecordsClassify :=
  ⟨fun _ _ _ _ _ hcfg ht hcalls hchain => classify_of_valid hcfg (valid_of_chain hcalls (valid_newRecord ht) hchain),
    fun _ _ _ _ _ happlies hv happly => valid_of_apply happlies hv happly⟩

/-! The reserved bits (R87). -/

/-- Setting a reserved bit leaves the tag. -/
theorem tagOf_withBitSet {cfg : Config} {v : EventVariant} {w : Fin 4} {k : Nat}
    (hk : reservedHasBit cfg v w k = true) (r : Raw) : tagOf (withBitSet r w k) = tagOf r := by
  have hspares := reservedHasBit_spares_cycle_and_tag hk
  refine tagOf_congr fun n hlo hhi => ?_
  obtain ⟨u, j, hj, rfl⟩ := exists_word_of_lt (show n < 128 by omega)
  rw [withBitSet, bitAt_setWordAt _ _ _ _ hj]
  split
  · rename_i h
    subst h
    rw [BitVec.getLsbD_or, BitVec.getLsbD_twoPow, decide_eq_false (show ¬ k = j by grind), Bool.and_false,
      Bool.or_false, bitAt_word _ _ hj]
  · rfl

/-- A record with a reserved bit of its variant set is valid for none. -/
theorem not_valid_withBitSet {cfg : Config} (hcfg : cfg.Admissible) {v : EventVariant} {r : Raw} {w : Fin 4} {k : Nat}
    (hv : valid cfg v r = true) (hk : reservedHasBit cfg v w k = true) (u : EventVariant) :
    valid cfg u (withBitSet r w k) = false := by
  refine Bool.eq_false_iff.2 fun hu => ?_
  have htag := tagOf_of_valid cfg v r hv
  rw [← tagOf_withBitSet hk r] at htag
  obtain rfl := EventVariant.toType_injective u v (toType_eq_of_valid hcfg htag hu)
  have hbit := getLsbD_of_valid hu hk
  simp [withBitSet, lt_of_reservedHasBit hk] at hbit

/-- Settles O17: the set bit makes the record valid for no variant; the counts are sums over RESERVED. -/
theorem reservedBitRejection : Obligations.ReservedBitRejection := by
  refine ⟨fun cfg v r w k hcfg hv hk => ?_, fun cfg => ?_⟩
  · have hnone := not_valid_withBitSet hcfg hv hk
    exact ⟨by simp [tryV, hnone v], classify_of_not_valid hnone⟩
  · refine ⟨rfl, rfl, rfl, rfl, rfl, rfl, rfl, fun hm => ?_, fun hm => ?_⟩ <;>
      simp [reservedCount, reserved, hm, allButCodeReserved]

end Sys2Proof.Machine
end

section
/-! PROOFS. The event fields and the Link pointer (42_event_fields.md; 44_link_contracts.md R151, R152): the getters that
lie in one word, and the setters, each of which gives the decoded record with its one field replaced. -/

namespace Sys2Proof.Machine

open Sys2Proof.Statements

/-! The getters (R92 to R98, R104 to R108, R112, R116, R120, R126, R130). -/

/-- Settles O31: the length, the endpoint and the slot are numbers, the event-data flag is one bit. -/
theorem transferEventGetters : Obligations.TransferEventGetters := by
  intro r
  refine ⟨getsNumber_of_readField rfl rfl rfl, ?_, getsNumber_of_readField rfl rfl rfl,
    getsNumber_of_readField rfl rfl rfl⟩
  refine typeOpAnswers_of_typedEffect fun _ _ => ?_
  have hread : readField .transferEventEventData (encode (.transferEvent r)) =
      ((encode (.transferEvent r)).w3.extractLsb' 2 1).setWidth 64 := rfl
  simp [typedEffect, Field.owner, Instr.type, fieldResponse, fieldKind, hread]

/-- Settles O32: FIELDS places each field at the slice the rule prints. -/
theorem commandCompletionGetters : Obligations.CommandCompletionGetters := fun _ =>
  ⟨getsNumber_of_readField rfl rfl rfl, getsNumber_of_readField rfl rfl rfl, getsNumber_of_readField rfl rfl rfl⟩

/-- Settles O33: FIELDS places each field at the slice the rule prints. -/
theorem portBandwidthDoorbellGetters : Obligations.PortBandwidthDoorbellGetters :=
  ⟨fun _ => getsNumber_of_readField rfl rfl rfl, fun _ => getsNumber_of_readField rfl rfl rfl,
    fun _ => getsNumber_of_readField rfl rfl rfl⟩

/-- Settles O34: FIELDS places each field at the slice the rule prints. -/
theorem deviceNotificationGetters : Obligations.DeviceNotificationGetters := fun _ =>
  ⟨getsNumber_of_readField rfl rfl rfl, getsNumber_of_readField rfl rfl rfl⟩

/-! What a setter of the record's own type does. -/

/-- A setter of the record's own type whose contract holds answers with the record written. -/
theorem exec_set_of_admitted {i : Instr} {f : Field} (howner : f.owner = i.type) {s : State} {t : RecType} {w : Raw}
    {v : BitVec f.operandWidth} (hclear : s.fatal = false)
    (hok : violation (fieldPlace f).width (fieldPlace f).align v.toNat = none) :
    exec i (s.present (.onType (.set (.field f v)) t w)) =
      .next (answered s (.value (.typed i.type ((fieldPlace f).write (encode i) v.toNat)))) := by
  refine typeOpAnswers_set ?_ ?_ s t w hclear
  · simp [SetterCall.appliesTo, howner]
  · exact writeField_eq_ok_iff.2 ⟨hok, rfl⟩

/-- One whose contract is broken enters the fault (60_exceptions.md R167). -/
theorem exec_set_of_violation {i : Instr} {f : Field} (howner : f.owner = i.type) {s : State} {t : RecType} {w : Raw}
    {v : BitVec f.operandWidth} {c : FatalCause} (hclear : s.fatal = false)
    (hbroken : violation (fieldPlace f).width (fieldPlace f).align v.toNat = some c) :
    exec i (s.present (.onType (.set (.field f v)) t w)) = .next (faulted s c (.set f)) := by
  obtain ⟨tag, -, he⟩ := typeEffect_default i.type (encode i) (.set (.field f v))
  have hfatal : typedEffect Config.default i.type tag (encode i) (.set (.field f v)) = .fatal c := by
    simp [typedEffect, SetterCall.appliesTo, howner, SetterCall.apply, writeField_eq_error_iff.2 hbroken]
  rw [exec_onType, he, hfatal, perform_fatal _ _ _ (by simpa using hclear), raiseFatal_present]
  rfl

/-- A setter with no alignment admits what fits its width, and gives the record `upd v` when that is the view of the
words written. Here and below `x` is the instruction's own words. -/
theorem setsBits_of_view {i : Instr} {x : Raw} {f : Field} {n : Nat} {upd : BitVec f.operandWidth → Instr}
    (hi : Instr.view i.type x = i) (howner : f.owner = i.type) (hwidth : (fieldPlace f).width = n)
    (halign : (fieldPlace f).align = 1)
    (hview : ∀ v, Instr.view i.type ((fieldPlace f).write x v.toNat) = upd v) : setsBits i f n upd := by
  intro s t w v hclear
  have hwords : encode i = x := hi ▸ encode_view i.type x
  rw [← hview, encode_view, ← hwords]
  refine ⟨fun hv => exec_set_of_admitted howner hclear ?_, fun hv => exec_set_of_violation howner hclear ?_⟩
  · rw [violation_eq_none_iff, hwidth, halign]
    exact ⟨hv, Nat.mod_one _⟩
  · rw [hwidth, halign]
    obtain ⟨-, h⟩ | ⟨hfits, -⟩ | ⟨hfits, -⟩ := violation_cases n 1 v.toNat
    · exact h
    · omega
    · omega

/-- A setter whose width is its operand's and that has no alignment admits every operand. -/
theorem setsAlways_of_view {i : Instr} {x : Raw} {f : Field} {upd : BitVec f.operandWidth → Instr}
    (hi : Instr.view i.type x = i) (howner : f.owner = i.type) (hwidth : (fieldPlace f).width = f.operandWidth)
    (halign : (fieldPlace f).align = 1)
    (hview : ∀ v, Instr.view i.type ((fieldPlace f).write x v.toNat) = upd v) : setsAlways i f upd := by
  intro v s t w hclear
  have hwords : encode i = x := hi ▸ encode_view i.type x
  rw [← hview, encode_view, ← hwords]
  refine exec_set_of_admitted howner hclear ((violation_eq_none_iff _ _ _).2 ?_)
  rw [hwidth, halign]
  exact ⟨v.isLt, Nat.mod_one _⟩

/-- An aligned pointer's setter admits the multiples of 16. -/
theorem setsPointer16_of_view {i : Instr} {x : Raw} {f : Field} {upd : BitVec f.operandWidth → Instr}
    (hi : Instr.view i.type x = i) (howner : f.owner = i.type) (hplace : fieldPlace f = .pointer 16)
    (hoperand : f.operandWidth = 64)
    (hview : ∀ v, Instr.view i.type ((fieldPlace f).write x v.toNat) = upd v) : setsPointer16 i f upd := by
  intro s t w v hclear
  have hfits : v.toNat < 2 ^ 64 := hoperand ▸ v.isLt
  have hwords : encode i = x := hi ▸ encode_view i.type x
  rw [← hview, encode_view, ← hwords]
  refine ⟨fun hv => exec_set_of_admitted howner hclear ?_, fun hv => exec_set_of_violation howner hclear ?_⟩
  · rw [hplace]
    exact (violation_eq_none_iff _ _ _).2 ⟨hfits, hv⟩
  · rw [hplace]
    obtain ⟨h, -⟩ | ⟨-, -, h⟩ | ⟨-, h, -⟩ := violation_cases 64 16 v.toNat
    · omega
    · exact h
    · exact absurd h hv

/-! The view of the words written: slices of a written word. -/

/-- The slice that was written holds the operand's low bits. -/
@[simp] theorem extractLsb'_writeBits_same (x : Word) {hi lo n : Nat} (v : Nat) (hn : n = hi - lo + 1) (hle : lo ≤ hi)
    (hhi : hi < 32) : (writeBits x hi lo v).extractLsb' lo n = BitVec.ofNat n v := by
  refine BitVec.eq_of_getLsbD_eq fun k hk => ?_
  rw [BitVec.getLsbD_extractLsb', getLsbD_writeBits _ _ _ _ _ hle hhi (by omega), if_pos (by omega),
    BitVec.getLsbD_ofNat, Nat.add_sub_cancel_left]

/-- A slice of the word apart from the one written is as it was. -/
@[simp] theorem extractLsb'_writeBits_apart (x : Word) {hi lo m n : Nat} (v : Nat) (hle : lo ≤ hi) (hhi : hi < 32)
    (happart : hi < m ∨ m + n ≤ lo) : (writeBits x hi lo v).extractLsb' m n = x.extractLsb' m n := by
  refine BitVec.eq_of_getLsbD_eq fun k hk => ?_
  rw [BitVec.getLsbD_extractLsb', BitVec.getLsbD_extractLsb']
  by_cases hword : m + k < 32
  · rw [getLsbD_writeBits _ _ _ _ _ hle hhi hword, if_neg (by omega)]
  · rw [BitVec.getLsbD_of_ge _ _ (by omega), BitVec.getLsbD_of_ge _ _ (by omega)]

/-- An operand cut in two is put together from the parts. -/
theorem ofNat_div_append_setWidth (n : Nat) {m : Nat} (v : BitVec m) :
    BitVec.ofNat 32 (v.toNat / 2 ^ n) ++ v.setWidth n = v.setWidth (32 + n) := by
  refine BitVec.eq_of_getLsbD_eq fun k hk => ?_
  rw [BitVec.getLsbD_append, BitVec.getLsbD_ofNat, BitVec.getLsbD_setWidth, BitVec.getLsbD_setWidth,
    Nat.testBit_div_two_pow, BitVec.testBit_toNat]
  by_cases hlow : k < n
  · simp [hlow, hk]
  · simp [hlow, hk, show k - n < 32 by omega, Nat.sub_add_cancel (Nat.le_of_not_lt hlow)]

/-! The setters (R91 to R99, R101, R103 to R109, R111 to R135, R151). -/

/-- Settles O37: the view of the words written is the record with the one field replaced. -/
theorem transferEventSetters : Obligations.TransferEventSetters := by
  intro r
  obtain ⟨w, rfl⟩ : ∃ w, TransferEventRec.ofRaw w = r := ⟨_, TransferEventRec.ofRaw_toRaw r⟩
  refine ⟨setsAlways_of_view rfl rfl rfl rfl fun v => ?trbPointer, setsBits_of_view rfl rfl rfl rfl fun v => ?_,
    setsAlways_of_view rfl rfl rfl rfl fun v => ?_, setsBits_of_view rfl rfl rfl rfl fun v => ?_,
    setsBits_of_view rfl rfl rfl rfl fun v => ?_⟩
  case trbPointer =>
    simpa [Instr.type, Instr.view, TransferEventRec.ofRaw, fieldPlace, Place.write, -Nat.reducePow] using
      ofNat_div_append_setWidth 32 v
  all_goals simp [Instr.type, Instr.view, TransferEventRec.ofRaw, fieldPlace, Place.write, setWordAt, wordAt]

/-- Settles O38: as for TransferEvent, and the pointer's alignment is 16. -/
theorem commandCompletionSetters : Obligations.CommandCompletionSetters := by
  intro r
  obtain ⟨w, rfl⟩ : ∃ w, CommandCompletionRec.ofRaw w = r := ⟨_, CommandCompletionRec.ofRaw_toRaw r⟩
  refine ⟨setsPointer16_of_view rfl rfl rfl rfl fun v => ?commandTrbPointer,
    setsBits_of_view rfl rfl rfl rfl fun v => ?_, setsBits_of_view rfl rfl rfl rfl fun v => ?_,
    setsBits_of_view rfl rfl rfl rfl fun v => ?_⟩
  case commandTrbPointer =>
    simpa [Instr.type, Instr.view, CommandCompletionRec.ofRaw, fieldPlace, Place.write, -Nat.reducePow] using
      ofNat_div_append_setWidth 32 v
  all_goals simp [Instr.type, Instr.view, CommandCompletionRec.ofRaw, fieldPlace, Place.write, setWordAt, wordAt]

/-- Settles O39: as for TransferEvent. -/
theorem portBandwidthDoorbellSetters : Obligations.PortBandwidthDoorbellSetters := by
  refine ⟨fun r => ?_, fun r => ?_, fun r => ?_⟩
  · obtain ⟨w, rfl⟩ : ∃ w, PortStatusChangeRec.ofRaw w = r := ⟨_, PortStatusChangeRec.ofRaw_toRaw r⟩
    refine setsBits_of_view rfl rfl rfl rfl fun v => ?_
    simp [Instr.type, Instr.view, PortStatusChangeRec.ofRaw, fieldPlace, Place.write, setWordAt, wordAt]
  · obtain ⟨w, rfl⟩ : ∃ w, BandwidthRequestRec.ofRaw w = r := ⟨_, BandwidthRequestRec.ofRaw_toRaw r⟩
    refine setsBits_of_view rfl rfl rfl rfl fun v => ?_
    simp [Instr.type, Instr.view, BandwidthRequestRec.ofRaw, fieldPlace, Place.write, setWordAt, wordAt]
  · obtain ⟨w, rfl⟩ : ∃ w, DoorbellRec.ofRaw w = r := ⟨_, DoorbellRec.ofRaw_toRaw r⟩
    refine setsBits_of_view rfl rfl rfl rfl fun v => ?_
    simp [Instr.type, Instr.view, DoorbellRec.ofRaw, fieldPlace, Place.write, setWordAt, wordAt]

/-- Settles O40: as for TransferEvent; the data lies in two words. -/
theorem deviceNotificationSetters : Obligations.DeviceNotificationSetters := by
  intro r
  obtain ⟨w, rfl⟩ : ∃ w, DeviceNotificationRec.ofRaw w = r := ⟨_, DeviceNotificationRec.ofRaw_toRaw r⟩
  refine ⟨setsBits_of_view rfl rfl rfl rfl fun v => ?_, setsBits_of_view rfl rfl rfl rfl fun v => ?notificationData,
    setsBits_of_view rfl rfl rfl rfl fun v => ?_⟩
  case notificationData =>
    simpa [Instr.type, Instr.view, DeviceNotificationRec.ofRaw, fieldPlace, Place.write, -Nat.reducePow] using
      ofNat_div_append_setWidth 24 v
  all_goals simp [Instr.type, Instr.view, DeviceNotificationRec.ofRaw, fieldPlace, Place.write, setWordAt, wordAt]

/-- Settles O41: the setter as for CommandCompletion's pointer; the getter is `get_ptr`. -/
theorem linkPointer : Obligations.LinkPointer := by
  intro r
  obtain ⟨w, rfl⟩ : ∃ w, LinkRec.ofRaw w = r := ⟨_, LinkRec.ofRaw_toRaw r⟩
  refine ⟨setsPointer16_of_view rfl rfl rfl rfl fun v => ?_, getsNumber_of_readField rfl rfl rfl⟩
  simpa [Instr.type, Instr.view, LinkRec.ofRaw, fieldPlace, Place.write, -Nat.reducePow] using
    ofNat_div_append_setWidth 32 v

/-- Settles O36: the completion code lies at the same bits of every variant, which the view puts in one field. -/
theorem completionCodeSetters : Obligations.CompletionCodeSetters := by
  refine ⟨fun r => ?_, fun r => ?_, fun r => ?_, fun r => ?_, fun r => ?_, fun r => ?_, fun r => ?_, fun r => ?_⟩
  · obtain ⟨w, rfl⟩ : ∃ w, TransferEventRec.ofRaw w = r := ⟨_, TransferEventRec.ofRaw_toRaw r⟩
    refine setsBits_of_view rfl rfl rfl rfl fun v => ?_
    simp [Instr.type, Instr.view, TransferEventRec.ofRaw, fieldPlace, Place.write, setWordAt, wordAt]
  · obtain ⟨w, rfl⟩ : ∃ w, CommandCompletionRec.ofRaw w = r := ⟨_, CommandCompletionRec.ofRaw_toRaw r⟩
    refine setsBits_of_view rfl rfl rfl rfl fun v => ?_
    simp [Instr.type, Instr.view, CommandCompletionRec.ofRaw, fieldPlace, Place.write, setWordAt, wordAt]
  · obtain ⟨w, rfl⟩ : ∃ w, PortStatusChangeRec.ofRaw w = r := ⟨_, PortStatusChangeRec.ofRaw_toRaw r⟩
    refine setsBits_of_view rfl rfl rfl rfl fun v => ?_
    simp [Instr.type, Instr.view, PortStatusChangeRec.ofRaw, fieldPlace, Place.write, setWordAt, wordAt]
  · obtain ⟨w, rfl⟩ : ∃ w, BandwidthRequestRec.ofRaw w = r := ⟨_, BandwidthRequestRec.ofRaw_toRaw r⟩
    refine setsBits_of_view rfl rfl rfl rfl fun v => ?_
    simp [Instr.type, Instr.view, BandwidthRequestRec.ofRaw, fieldPlace, Place.write, setWordAt, wordAt]
  · obtain ⟨w, rfl⟩ : ∃ w, DoorbellRec.ofRaw w = r := ⟨_, DoorbellRec.ofRaw_toRaw r⟩
    refine setsBits_of_view rfl rfl rfl rfl fun v => ?_
    simp [Instr.type, Instr.view, DoorbellRec.ofRaw, fieldPlace, Place.write, setWordAt, wordAt]
  · obtain ⟨w, rfl⟩ : ∃ w, HostControllerRec.ofRaw w = r := ⟨_, HostControllerRec.ofRaw_toRaw r⟩
    refine setsBits_of_view rfl rfl rfl rfl fun v => ?_
    simp [Instr.type, Instr.view, HostControllerRec.ofRaw, fieldPlace, Place.write, setWordAt, wordAt]
  · obtain ⟨w, rfl⟩ : ∃ w, DeviceNotificationRec.ofRaw w = r := ⟨_, DeviceNotificationRec.ofRaw_toRaw r⟩
    refine setsBits_of_view rfl rfl rfl rfl fun v => ?_
    simp [Instr.type, Instr.view, DeviceNotificationRec.ofRaw, fieldPlace, Place.write, setWordAt, wordAt]
  · obtain ⟨w, rfl⟩ : ∃ w, MfindexWrapRec.ofRaw w = r := ⟨_, MfindexWrapRec.ofRaw_toRaw r⟩
    refine setsBits_of_view rfl rfl rfl rfl fun v => ?_
    simp [Instr.type, Instr.view, MfindexWrapRec.ofRaw, fieldPlace, Place.write, setWordAt, wordAt]

end Sys2Proof.Machine
end

section
/-! PROOFS. The completion code (43_completion_code.md R141, R142), and what the getters tell of a record
(40_framework.md R61; 30_encoding.md R47). -/

namespace Sys2Proof.Machine

open Sys2Proof.Statements

/-! The byte is recoverable (R142). -/

/-- The value of a name is the one its row gives: there is one. -/
theorem ccValue_eq_some_iff {cfg : Config} (hcfg : cfg.Admissible) (c : CompletionCode) (n : BitVec 8) :
    ccValue cfg c = some n ↔ (c, n) ∈ cfg.ccTable := by
  have hmem : ∀ m, cfg.ccTable.lookup c = some m → (c, m) ∈ cfg.ccTable := by
    intro m hm
    obtain ⟨before, after, htable, -⟩ := List.lookup_eq_some_iff.1 hm
    simp [htable]
  refine ⟨hmem n, fun hn => ?_⟩
  have hsome : (cfg.ccTable.lookup c).isSome = true := List.lookup_isSome_iff.2 ⟨(c, n), hn, by simp⟩
  obtain ⟨m, hm⟩ := Option.isSome_iff_exists.1 hsome
  rw [ccValue, hm, hcfg.ccOneValue c m n (hmem m hm) hn]

/-- Two bytes with the same result are the same byte: a name has one value, and a byte in no row comes back itself. -/
theorem ccDecode_injective {cfg : Config} (hcfg : cfg.Admissible) {m n : BitVec 8}
    (h : ccDecode cfg m = ccDecode cfg n) : m = n := by
  obtain ⟨c, hc, hm⟩ | ⟨-, hm⟩ := ccDecode_cases cfg m
  · exact hcfg.ccOneValue c m n hc ((ccDecode_eq_ok_iff hcfg n c).1 (h ▸ hm))
  · obtain ⟨d, -, hn⟩ | ⟨-, hn⟩ := ccDecode_cases cfg n
    · cases hn.symm.trans (h.symm.trans hm)
    · cases hn.symm.trans (h.symm.trans hm)
      rfl

/-- Settles O43: the decoder and `cc_value` read the same rows, each of which is alone with its name and its byte. -/
theorem completionCodeByteIsRecoverable : Obligations.CompletionCodeByteIsRecoverable := fun _ hcfg =>
  ⟨fun c n => (ccValue_eq_some_iff hcfg c n).trans (ccDecode_eq_ok_iff hcfg n c).symm,
    fun _ _ => ccDecode_injective hcfg⟩

/-! CC.DECODE as a step (R141). -/

/-- The bytes with no row in the default table. -/
theorem not_mem_defaultCcTable_iff (n : BitVec 8) :
    (∀ c, (c, n) ∉ Config.default.ccTable) ↔ n = 30 ∨ 37 ≤ n.toNat := by
  have hrows : (∀ c, (c, n) ∉ Config.default.ccTable) ↔ n ∉ defaultCcTable.map Prod.snd := by
    simp [Config.default]
  rw [hrows]
  clear hrows
  revert n
  decide

/-- What CC.DECODE answers is what the lookup gives. -/
theorem step_ccDecode_of_clear {s : State} (n : BitVec 8) (hclear : s.fatal = false) :
    step (s.present (.ccDecode n)) = .next (answered s (ccResponse Config.default n)) := by
  rw [step_ccDecode, perform_respond _ _ _ (by simpa using hclear), complete_present]

/-- Settles O44: the step answers with the lookup, and the default table is evaluated for the bytes it leaves out. -/
theorem ccDecodeStep : Obligations.CcDecodeStep := by
  intro s n hclear
  refine ⟨fun c hc => ?_, fun hnone => ?_, not_mem_defaultCcTable_iff n⟩
  · rw [step_ccDecode_of_clear n hclear, ccResponse, (ccDecode_eq_ok_iff Config.default_admissible n c).2 hc]
  · rw [step_ccDecode_of_clear n hclear, ccResponse, (ccDecode_eq_error_iff _ n).2 hnone]

/-! What a getter's result tells of the field. -/

/-- A field no wider than `n` bits is told by the low `n` bits of what is read. -/
theorem readField_eq_of_setWidth_eq {f : Field} {r r' : Raw} {n : Nat} (hwidth : (fieldPlace f).width ≤ n)
    (h : (readField f r).setWidth n = (readField f r').setWidth n) : readField f r = readField f r' := by
  refine BitVec.eq_of_getLsbD_eq fun k _ => ?_
  by_cases hk : k < n
  · simpa [BitVec.getLsbD_setWidth, hk] using congrArg (fun x : BitVec n => x.getLsbD k) h
  · simp [getLsbD_readField, show ¬ k < (fieldPlace f).width by omega]

theorem ccResponse_injective {cfg : Config} (hcfg : cfg.Admissible) {m n : BitVec 8}
    (h : ccResponse cfg m = ccResponse cfg n) : m = n := by
  refine ccDecode_injective hcfg ?_
  unfold ccResponse at h
  split at h <;> split at h <;> simp_all

/-- Records of which a getter returns the same hold the same field, the completion code by R142. -/
theorem readField_eq_of_fieldResponse_eq {cfg : Config} (hcfg : cfg.Admissible) {f : Field} {r r' : Raw}
    (h : fieldResponse cfg f r = fieldResponse cfg f r') : readField f r = readField f r' := by
  cases hkind : fieldKind f with
  | number => simpa [fieldResponse, hkind] using h
  | flag =>
    refine readField_eq_of_setWidth_eq (n := 1) ?_ (by simpa [fieldResponse, hkind] using h)
    cases f <;> cases hkind
    decide
  | code =>
    refine readField_eq_of_setWidth_eq (n := 8) ?_ (ccResponse_injective hcfg (by simpa [fieldResponse, hkind] using h))
    rw [fieldPlace_of_code hkind]
    decide

/-! Observational equality (R61, R47). -/

/-- Bit `k` of word `w` is the cycle bit, or lies in the tag, in a reserved range or in a field of the variant: the bits
that the unnamed ranges of R47 leave. -/
def isNamed (cfg : Config) (v : EventVariant) (w : Fin 4) (k : Nat) : Bool :=
  (w == 3 && (k == 0 || decide (10 ≤ k ∧ k ≤ 15))) || reservedHasBit cfg v w k ||
    Field.all.any fun f => f.owner == v.toType && placeHasBit (fieldPlace f) w k

/-- The named bits depend on MFINDEX_RESERVED and on no table. -/
theorem isNamed_eq (cfg : Config) (v : EventVariant) (w : Fin 4) (k : Nat) :
    isNamed cfg v w k = isNamed { Config.default with mfindexReserved := cfg.mfindexReserved } v w k := by
  cases v <;> rfl

/-- All bits are named, but for Doorbell's and, under LITERAL, MfindexWrap's. -/
theorem isNamed_of_ne {cfg : Config} {v : EventVariant} (hdoorbell : v ≠ .doorbell)
    (hmfindex : v ≠ .mfindexWrap ∨ cfg.mfindexReserved = .strict) (w : Fin 4) (k : Fin 32) :
    isNamed cfg v w k = true := by
  have hall : ∀ u ∈ eventOrder, u ≠ .doorbell → (u ≠ .mfindexWrap ∨ cfg.mfindexReserved = .strict) →
      ∀ (w : Fin 4) (k : Fin 32),
        isNamed { Config.default with mfindexReserved := cfg.mfindexReserved } u w k = true := by
    cases cfg.mfindexReserved <;> decide
  rw [isNamed_eq]
  exact hall v (mem_eventOrder v) hdoorbell hmfindex w k

/-- A bit of a field of the variant is named. -/
theorem isNamed_of_covers {cfg : Config} {v : EventVariant} {f : Field} (howner : f.owner = v.toType) {w : Fin 4}
    {k : Nat} (hk : k < 32) (h : (fieldPlace f).Covers (32 * w + k)) : isNamed cfg v w k = true := by
  have hfield : (Field.all.any fun g => g.owner == v.toType && placeHasBit (fieldPlace g) w k) = true :=
    List.any_eq_true.2 ⟨f, Field.mem_all f, by simp [howner, (placeHasBit_iff_covers f w hk).2 h]⟩
  simp [isNamed, hfield]

/-- Records that agree on the named bits are valid alike, have the same cycle bit, and every getter of the variant
returns the same of them. -/
theorem observed_congr {cfg : Config} {v : EventVariant} {r r' : Raw}
    (h : ∀ (w : Fin 4) (k : Fin 32), isNamed cfg v w k = true → bitAt r' (32 * w + k) = bitAt r (32 * w + k)) :
    valid cfg v r' = valid cfg v r ∧ getCycle r' = getCycle r ∧
      ∀ f : Field, f.owner = v.toType → fieldResponse cfg f r' = fieldResponse cfg f r := by
  refine ⟨valid_congr (tagOf_congr fun n hlo hhi => ?_) fun w k hk => ?_, getCycle_congr (h 3 0 (by simp [isNamed])),
    fun f howner => ?_⟩
  · have htag := h 3 ⟨n - 96, by omega⟩ (by grind [isNamed])
    rwa [show 32 * ((3 : Fin 4) : Nat) + (n - 96) = n by grind] at htag
  · have hlt := lt_of_reservedHasBit hk
    rw [← bitAt_word _ w hlt, ← bitAt_word _ w hlt]
    exact h w ⟨k, hlt⟩ (by simp [isNamed, hk])
  · have hread : readField f r' = readField f r := readField_congr fun n hn hcovers => by
      obtain ⟨w, k, hk, rfl⟩ := exists_word_of_lt hn
      exact h w ⟨k, hk⟩ (isNamed_of_covers howner hk hcovers)
    simp only [fieldResponse, hread]

/-- The converse: valid records with the same cycle bit, of which every getter of the variant returns the same, agree on
the named bits. -/
theorem bitAt_eq_of_observed {cfg : Config} (hcfg : cfg.Admissible) {v : EventVariant} {r r' : Raw}
    (hv : valid cfg v r = true) (hv' : valid cfg v r' = true) (hcycle : getCycle r = getCycle r')
    (hget : ∀ f : Field, f.owner = v.toType → fieldResponse cfg f r = fieldResponse cfg f r') {w : Fin 4} {k : Nat}
    (hk : k < 32) (hnamed : isNamed cfg v w k = true) : bitAt r (32 * w + k) = bitAt r' (32 * w + k) := by
  simp only [isNamed, Bool.or_eq_true, Bool.and_eq_true, beq_iff_eq, decide_eq_true_eq, List.any_eq_true] at hnamed
  obtain (⟨rfl, rfl | htag⟩ | hreserved) | ⟨f, -, howner, hplace⟩ := hnamed
  · rw [bitAt_word _ _ hk, bitAt_word _ _ hk]
    simpa [getCycle, wordAt] using congrArg (fun x : BitVec 1 => x.getLsbD 0) hcycle
  · have hsame : tagOf r = tagOf r' :=
      Option.some.inj ((tagOf_of_valid cfg v r hv).symm.trans (tagOf_of_valid cfg v r' hv'))
    have hbit := congrArg (fun x : BitVec 6 => x.getLsbD (k - 10)) hsame
    rw [bitAt_word _ _ hk, bitAt_word _ _ hk]
    simpa [tagOf, wordAt, show k - 10 < 6 by omega, show 10 + (k - 10) = k by omega] using hbit
  · rw [bitAt_word _ _ hk, bitAt_word _ _ hk, getLsbD_of_valid hv hreserved, getLsbD_of_valid hv' hreserved]
  · obtain ⟨hlo, hhi⟩ := (placeHasBit_iff_covers f w hk).1 hplace
    have hread := readField_eq_of_fieldResponse_eq hcfg (hget f howner)
    have hbit := congrArg (fun x : BitVec 64 => x.getLsbD (32 * w + k - (fieldPlace f).base)) hread
    simpa only [getLsbD_readField, Nat.add_sub_cancel' hlo, show 32 * w.val + k - (fieldPlace f).base <
      (fieldPlace f).width by omega, decide_true, Bool.true_and] using hbit

/-- Doorbell names no bit of `W[3][31:16]` (R39). -/
theorem lt_of_isNamed_doorbell (cfg : Config) : ∀ (w : Fin 4) (k : Fin 32), isNamed cfg .doorbell w k = true →
    w = 3 → k.val < 16 := by
  simp only [isNamed_eq cfg]
  cases cfg.mfindexReserved <;> decide

/-- Under LITERAL MfindexWrap names no bit of `W[0][31:4]`, `W[1]` and `W[3][31:24]` (R42). -/
theorem spares_of_isNamed_mfindexWrap {cfg : Config} (hliteral : cfg.mfindexReserved = .literal) :
    ∀ (w : Fin 4) (k : Fin 32), isNamed cfg .mfindexWrap w k = true →
      (w = 0 → k.val < 4) ∧ w ≠ 1 ∧ (w = 3 → k.val < 24) := by
  simp only [isNamed_eq cfg, hliteral]
  decide

/-- The low bits of a word whose high bits were replaced. -/
theorem getLsbD_append_extractLsb' {m n k : Nat} (x : BitVec m) (y : Word) (hk : k < n) :
    (x ++ y.extractLsb' 0 n).getLsbD k = y.getLsbD k := by
  rw [BitVec.getLsbD_append, BitVec.getLsbD_extractLsb']
  simp [hk]

/-- Settles O29: what is observed of a record is its named bits, and only the two variants have others. -/
theorem observationalEquality : Obligations.ObservationalEquality := by
  refine ⟨fun cfg v r r' hcfg hdoorbell hmfindex hv hv' hcycle hget => eq_of_bitAt_eq fun n hn => ?equal,
    fun cfg r x => observed_congr fun w k hnamed => ?doorbell,
    fun cfg r x y z hliteral => observed_congr fun w k hnamed => ?mfindexWrap⟩
  case equal =>
    obtain ⟨w, k, hk, rfl⟩ := exists_word_of_lt hn
    exact bitAt_eq_of_observed hcfg hv hv' hcycle hget hk (isNamed_of_ne hdoorbell hmfindex w ⟨k, hk⟩)
  case doorbell =>
    have hlow := lt_of_isNamed_doorbell cfg w k hnamed
    rw [bitAt_word _ w k.isLt, bitAt_word _ w k.isLt]
    match w with
    | 0 | 1 | 2 => rfl
    | 3 => exact getLsbD_append_extractLsb' x r.w3 (hlow rfl)
  case mfindexWrap =>
    obtain ⟨hw0, hw1, hw3⟩ := spares_of_isNamed_mfindexWrap hliteral w k hnamed
    rw [bitAt_word _ w k.isLt, bitAt_word _ w k.isLt]
    match w with
    | 0 => exact getLsbD_append_extractLsb' x r.w0 (hw0 rfl)
    | 1 => exact absurd rfl hw1
    | 2 => rfl
    | 3 => exact getLsbD_append_extractLsb' z r.w3 (hw3 rfl)

end Sys2Proof.Machine
end

section
/-! PROOFS. The FATAL latch (60_exceptions.md): what one input does, what a step can do to the state, and what every step
and every run keeps. -/

namespace Sys2Proof.Machine

open Sys2Proof.Statements

/-! The setter contracts (R163, R164): the printed table against FIELDS and ALIGN. -/

/-- The printed contract of a setter is the check of its place, for the operands it can be given. -/
theorem setterContract_iff (f : Field) (v : BitVec f.operandWidth) :
    setterContract f v.toNat = true ↔ violation (fieldPlace f).width (fieldPlace f).align v.toNat = none := by
  have hlt := v.isLt
  rw [violation_eq_none_iff]
  cases f <;>
    simp [setterContract, fieldPlace, Place.width, Place.align, Field.operandWidth, Nat.mod_one] at hlt ⊢ <;>
    omega

/-- The cause a setter raises is the one its row names. -/
theorem setterCause_of_violation {f : Field} {v : BitVec f.operandWidth} {c : FatalCause}
    (h : violation (fieldPlace f).width (fieldPlace f).align v.toNat = some c) : setterCause f = some c := by
  have hlt := v.isLt
  obtain ⟨hwide, hc⟩ | ⟨-, hmis, hc⟩ | ⟨-, -, hc⟩ := violation_cases (fieldPlace f).width (fieldPlace f).align v.toNat
  · cases hc.symm.trans h
    cases f <;> simp [setterCause, fieldPlace, Place.width, Field.operandWidth] at hlt hwide ⊢ <;> omega
  · cases hc.symm.trans h
    obtain ⟨rfl | rfl, -⟩ | ⟨-, halign⟩ := fieldPlace_align f
    · rfl
    · rfl
    · exact absurd (halign ▸ Nat.mod_one _) hmis
  · cases hc.symm.trans h

/-- A broken contract raises the cause of its row. -/
theorem exists_violation_of_not_contract {f : Field} {v : BitVec f.operandWidth}
    (h : setterContract f v.toNat = false) :
    ∃ c, setterCause f = some c ∧ violation (fieldPlace f).width (fieldPlace f).align v.toNat = some c := by
  cases hv : violation (fieldPlace f).width (fieldPlace f).align v.toNat with
  | none => exact absurd ((setterContract_iff f v).2 hv) (by simp [h])
  | some c => exact ⟨c, setterCause_of_violation hv, rfl⟩

/-- Settles O47: the printed contract holds exactly when the check of the place passes. -/
theorem setterFaultsExactlyOnBrokenContract : Obligations.SetterFaultsExactlyOnBrokenContract := by
  intro i s t w f v hclear howner
  refine ⟨fun hok => ⟨_, exec_set_of_admitted howner hclear ((setterContract_iff f v).1 hok)⟩, fun hbroken => ?_⟩
  obtain ⟨c, hcause, hv⟩ := exists_violation_of_not_contract hbroken
  exact ⟨c, hcause, exec_set_of_violation howner hclear hv⟩

/-! What one input does. -/

/-- The operation an input names and its effect; reset is no operation (60_exceptions.md R173). -/
def inputEffect (cfg : Config) : Input → Option (OpName × Effect)
  | .reset => none
  | .onType op t r => some (op.name t, typeEffect cfg t r op)
  | .onAllowed op v r => some (op.name, allowedEffect v.toType r op)
  | .onRaw op w => some (op.name, rawEffect cfg w op)
  | .ccDecode n => some (.ccDecode, .respond (ccResponse cfg n))

/-- An input other than reset has an effect, and a step performs it. -/
theorem stepWith_present (cfg : Config) (x : Input) :
    x = .reset ∨ ∃ op e, inputEffect cfg x = some (op, e) ∧
      ∀ s : State, stepWith cfg (s.present x) = perform op e (s.present x) := by
  cases x with
  | reset => exact .inl rfl
  | onType op t r => exact .inr ⟨_, _, rfl, fun s => stepWith_onType cfg s op t r⟩
  | onAllowed op v r => exact .inr ⟨_, _, rfl, fun s => stepWith_onAllowed cfg s op v r⟩
  | onRaw op w => exact .inr ⟨_, _, rfl, fun s => stepWith_onRaw cfg s op w⟩
  | ccDecode n => exact .inr ⟨_, _, rfl, fun s => stepWith_ccDecode cfg s n⟩

/-- What an input's effect can be: an answer of an operation that keeps its contract, the fault of a setter that breaks
its own, or a refusal of what is no operation. -/
inductive EffectCase (cfg : Config) (x : Input) (op : OpName) : Effect → Prop
  | answers (y : Response) (hoperation : isOperation cfg x = true) (hkeeps : keepsContract x = true) (hy : y ≠ .fault) :
    EffectCase cfg x op (.respond y)
  | faults (f : Field) (c : FatalCause) (hoperation : isOperation cfg x = true) (hbreaks : keepsContract x = false)
    (hsetter : isSetterOf f x) (hname : op = .set f) (hcause : setterCause f = some c) : EffectCase cfg x op (.fatal c)
  | refused (ρ : Refusal) (hdeclined : isOperation cfg x = false) : EffectCase cfg x op (.refuse ρ)

/-- A getter answers a value or what the lookup gives. -/
theorem fieldResponse_ne_fault (cfg : Config) (f : Field) (r : Raw) : fieldResponse cfg f r ≠ .fault := by
  cases hkind : fieldKind f <;> simp [fieldResponse, hkind, ccResponse_ne_fault]

/-- The field setter of the type, by its contract. -/
theorem typedEffect_set_case {cfg : Config} {t : RecType} {tag : BitVec 6} (ht : cfg.typeTable t = some tag) (r : Raw)
    (f : Field) (v : BitVec f.operandWidth) :
    EffectCase cfg (.onType (.set (.field f v)) t r) (.set f) (typedEffect cfg t tag r (.set (.field f v))) := by
  by_cases howner : f.owner = t
  swap
  · have hno : SetterCall.appliesTo t (.field f v) = false := by simpa [SetterCall.appliesTo] using howner
    simp only [typedEffect, hno, Bool.false_eq_true, if_false]
    exact .refused _ (by simp [isOperation, typeHasOp, hno])
  have hyes : SetterCall.appliesTo t (.field f v) = true := by simpa [SetterCall.appliesTo] using howner
  have hoperation : isOperation cfg (.onType (.set (.field f v)) t r) = true := by
    simp [isOperation, ht, typeHasOp, hyes]
  simp only [typedEffect, hyes, if_true, SetterCall.apply]
  cases hcontract : setterContract f v.toNat with
  | true =>
    rw [writeField_eq_ok_iff.2 ⟨(setterContract_iff f v).1 hcontract, rfl⟩]
    exact .answers _ hoperation hcontract (by simp)
  | false =>
    obtain ⟨c, hcause, hv⟩ := exists_violation_of_not_contract hcontract
    rw [writeField_eq_error_iff.2 hv]
    exact .faults f c hoperation hcontract rfl rfl hcause

/-- An operation on a type that the table has. -/
theorem typedEffect_case {cfg : Config} {t : RecType} {tag : BitVec 6} (ht : cfg.typeTable t = some tag) (r : Raw)
    (op : TypeOp) : EffectCase cfg (.onType op t r) (op.name t) (typedEffect cfg t tag r op) := by
  cases op with
  | set call =>
    cases call with
    | field f v => exact typedEffect_set_case ht r f v
    | cycle b => exact .answers _ (by simp [isOperation, ht, typeHasOp, SetterCall.appliesTo]) rfl (by simp)
  | get f =>
    by_cases howner : f.owner = t
    · simp only [typedEffect, howner, if_true]
      exact .answers _ (by simp [isOperation, ht, typeHasOp, howner]) rfl (fieldResponse_ne_fault cfg f r)
    · simp only [typedEffect, howner, if_false]
      exact .refused _ (by simp [isOperation, typeHasOp, howner])
  | tryV =>
    cases hevent : t.event? with
    | some v =>
      have hoperation : isOperation cfg (.onType .tryV t r) = true := by simp [isOperation, ht, typeHasOp, hevent]
      obtain ⟨-, htry⟩ | ⟨-, htry⟩ := tryV_cases cfg v r <;> simp only [typedEffect, hevent, htry]
      · exact .answers _ hoperation rfl (by simp)
      · exact .answers _ hoperation rfl (by simp)
    | none =>
      simp only [typedEffect, hevent]
      exact .refused _ (by simp [isOperation, typeHasOp, hevent])
  | wrap =>
    cases hevent : t.event? with
    | some v =>
      simp only [typedEffect, hevent]
      exact .answers _ (by simp [isOperation, ht, typeHasOp, hevent]) rfl (by simp)
    | none =>
      simp only [typedEffect, hevent]
      exact .refused _ (by simp [isOperation, typeHasOp, hevent])
  | _ => exact .answers _ (by simp [isOperation, ht, typeHasOp]) rfl (by simp)

/-- Every input with an effect. -/
theorem effectCase_of_inputEffect {cfg : Config} {x : Input} {op : OpName} {e : Effect}
    (h : inputEffect cfg x = some (op, e)) : EffectCase cfg x op e := by
  cases x with
  | reset => cases h
  | onType o t r =>
    cases h
    obtain ⟨hnone, he⟩ | ⟨tag, ht, he⟩ := typeEffect_eq cfg t r o
    · rw [he]
      exact .refused _ (by simp [isOperation, hnone])
    · rw [he]
      exact typedEffect_case ht r o
  | onAllowed o v r =>
    cases h
    obtain ⟨y, hy, he⟩ := allowedEffect_responds v r o
    rw [he]
    exact .answers y rfl rfl hy
  | onRaw o w =>
    cases h
    obtain ⟨y, hy, he⟩ := rawEffect_responds cfg w o
    rw [he]
    exact .answers y rfl rfl hy
  | ccDecode n =>
    cases h
    exact .answers _ rfl rfl (ccResponse_ne_fault cfg n)

/-- An operation is declined exactly when its effect is a refusal. -/
theorem perform_refused_iff (op : OpName) (e : Effect) (s : State) (ρ : Refusal) :
    perform op e s = .refused ρ ↔ e = .refuse ρ := by
  cases e <;> simp [perform]

/-- Settles O48: an operation of the block is not declined, so the gate answers. -/
theorem gateWhileFatal : Obligations.GateWhileFatal := by
  intro cfg s x hset hoperation
  obtain rfl | ⟨op, e, he, hstep⟩ := stepWith_present cfg x
  · cases hoperation
  have hcase := effectCase_of_inputEffect he
  rw [hstep, perform_gate op e _ (by simpa using hset), complete_present]
  rintro ρ rfl
  cases hcase with
  | refused _ hdeclined => exact absurd hoperation (by simp [hdeclined])

/-- Settles O50: what is declined is exactly an effect that is a refusal. -/
theorem onlyNonOperationsAreRefused : Obligations.OnlyNonOperationsAreRefused := by
  intro cfg s x
  obtain rfl | ⟨op, e, he, hstep⟩ := stepWith_present cfg x
  · simp [stepWith_reset]
  have hne : x ≠ .reset := by
    rintro rfl
    cases he
  simp only [hstep, perform_refused_iff, hne, ne_eq, not_false_eq_true, and_true]
  cases effectCase_of_inputEffect he with
  | answers y hoperation => simp [hoperation]
  | faults f c hoperation => simp [hoperation]
  | refused ρ hdeclined => simp [hdeclined]

/-! The outcomes of R160. -/

/-- The lookup answers as its row of R160 says. -/
theorem byteOutcome_ccResponse {cfg : Config} (hcfg : cfg.Admissible) (n : BitVec 8) :
    byteOutcome cfg n (ccResponse cfg n) := by
  refine ⟨fun c hc => ?_, fun hnone => ?_⟩
  · rw [ccResponse, (ccDecode_eq_ok_iff hcfg n c).2 hc]
  · rw [ccResponse, (ccDecode_eq_error_iff cfg n).2 hnone]

/-- A getter answers as its row says: the completion code by the lookup, any other field with a value. -/
theorem outcomeInTable_get {cfg : Config} (hcfg : cfg.Admissible) (f : Field) (t : RecType) (r : Raw) :
    outcomeInTable cfg (.onType (.get f) t r) (fieldResponse cfg f r) := by
  have hcode : namesCompletionCode f = true ↔ fieldKind f = .code := by cases f <;> decide
  simp only [outcomeInTable]
  cases hkind : fieldKind f with
  | code =>
    rw [if_pos (hcode.2 hkind), fieldResponse_of_code cfg hkind]
    exact byteOutcome_ccResponse hcfg _
  | number =>
    rw [if_neg (by simp [hcode, hkind])]
    exact ⟨_, by simp only [fieldResponse, hkind]; rfl⟩
  | flag =>
    rw [if_neg (by simp [hcode, hkind])]
    exact ⟨_, by simp only [fieldResponse, hkind]; rfl⟩

/-- TRY answers as its row says. -/
theorem outcomeInTable_tryV {cfg : Config} {t : RecType} {tag : BitVec 6} {r : Raw} {y : Response}
    (h : typedEffect cfg t tag r .tryV = .respond y) : outcomeInTable cfg (.onType .tryV t r) y := by
  cases hevent : t.event? with
  | none => simp [typedEffect, hevent] at h
  | some v =>
    refine ⟨v, (eq_toType_of_event? hevent).symm, fun hv => ?_, fun hv => ?_⟩
    · simpa [typedEffect, hevent, tryV, hv, eq_comm] using h
    · simpa [typedEffect, hevent, tryV, hv, eq_comm] using h

/-- An operation on a type answers as its row says. -/
theorem outcomeInTable_of_typedEffect {cfg : Config} (hcfg : cfg.Admissible) {t : RecType} {tag : BitVec 6} {r : Raw}
    {op : TypeOp} {y : Response} (h : typedEffect cfg t tag r op = .respond y) :
    outcomeInTable cfg (.onType op t r) y := by
  cases op with
  | get f =>
    simp only [typedEffect] at h
    split at h
    · cases h
      exact outcomeInTable_get hcfg f t r
    · cases h
  | tryV => exact outcomeInTable_tryV h
  | set call =>
    simp only [typedEffect] at h
    split at h
    · split at h
      · cases h
        exact ⟨_, rfl⟩
      · cases h
    · cases h
  | wrap =>
    simp only [typedEffect] at h
    split at h
    · cases h
      exact ⟨_, rfl⟩
    · cases h
  | _ =>
    cases h
    exact ⟨_, rfl⟩

/-- An operation on a raw record answers as its row says. -/
theorem outcomeInTable_of_rawEffect {cfg : Config} (hcfg : cfg.Admissible) {w : Raw} {op : RawOp} {y : Response}
    (h : rawEffect cfg w op = .respond y) : outcomeInTable cfg (.onRaw op w) y := by
  cases op with
  | typeOf =>
    refine ⟨fun t ht => ?_, fun hnone => ?_⟩
    · simpa [rawEffect, (typeOfTag_eq_some cfg hcfg _ t).2 ht, eq_comm] using h
    · simpa [rawEffect, (typeOfTag_eq_none cfg _).2 hnone, eq_comm] using h
  | classify =>
    refine ⟨fun v hv => ?_, fun hnone => ?_⟩
    · simpa [rawEffect, classify_of_valid hcfg hv, eq_comm] using h
    · simpa [rawEffect, classify_of_not_valid hnone, eq_comm] using h

/-- Every answer is the one R160 gives the operation. -/
theorem outcomeInTable_of_inputEffect {cfg : Config} (hcfg : cfg.Admissible) {x : Input} {op : OpName} {y : Response}
    (h : inputEffect cfg x = some (op, .respond y)) : outcomeInTable cfg x y := by
  cases x with
  | reset => cases h
  | onType o t r =>
    obtain ⟨-, he⟩ := Prod.mk.inj (Option.some.inj h)
    obtain ⟨-, hrefused⟩ | ⟨tag, -, htyped⟩ := typeEffect_eq cfg t r o
    · cases hrefused.symm.trans he
    · exact outcomeInTable_of_typedEffect hcfg (htyped.symm.trans he)
  | onAllowed o v r =>
    obtain ⟨-, he⟩ := Prod.mk.inj (Option.some.inj h)
    cases o <;> simp only [allowedEffect, event?_toType] at he <;> cases he <;> exact ⟨_, rfl⟩
  | onRaw o w =>
    obtain ⟨-, he⟩ := Prod.mk.inj (Option.some.inj h)
    exact outcomeInTable_of_rawEffect hcfg he
  | ccDecode n =>
    cases h
    exact byteOutcome_ccResponse hcfg n

/-- Settles O49: the case of the input's effect decides the outcome, and R160's table the answer. -/
theorem fourOutcomes : Obligations.FourOutcomes := by
  intro cfg s x hcfg hoperation
  refine ⟨fun hclear hkeeps => ?_, fun hclear hbreaks => ?_, fun hset => gateWhileFatal cfg s x hset hoperation⟩
  all_goals
    obtain rfl | ⟨op, e, he, hstep⟩ := stepWith_present cfg x
    · cases hoperation
    rw [hstep]
  · cases effectCase_of_inputEffect he with
    | answers y =>
      exact ⟨y, outcomeInTable_of_inputEffect hcfg he,
        by rw [perform_respond _ _ (s.present x) hclear, complete_present]⟩
    | faults f c _ hbreaks => simp [hkeeps] at hbreaks
    | refused ρ hdeclined => simp [hoperation] at hdeclined
  · cases effectCase_of_inputEffect he with
    | answers y _ hkeeps => simp [hbreaks] at hkeeps
    | faults f c _ _ hsetter hname hcause =>
      exact ⟨f, c, hsetter, hcause, by rw [perform_fatal _ _ (s.present x) hclear, raiseFatal_present, hname]⟩
    | refused ρ hdeclined => simp [hoperation] at hdeclined

/-! What a step can do. -/

/-- A step that gives a state idles, takes reset, answers, answers by the gate, or enters the fault of a setter whose
contract is broken. -/
theorem stepWith_next_cases {cfg : Config} {s s' : State} (h : stepWith cfg s = .next s') :
    (s.inputs = [] ∧ s' = s.idle) ∨
    (s.inputs.head? = some .reset ∧ s' = s.takeReset) ∨
    (s.fatal = false ∧ ∃ y, y ≠ .fault ∧ s' = s.complete y) ∨
    (s.fatal = true ∧ s' = s.complete .fault) ∨
    (s.fatal = false ∧ ∃ x ∈ s.inputs, keepsContract x = false ∧
      ∃ f c, setterCause f = some c ∧ s' = s.raiseFatal c (.set f)) := by
  cases hin : s.inputs with
  | nil =>
    cases (stepWith_nothing cfg s hin).symm.trans h
    exact .inl ⟨rfl, rfl⟩
  | cons x rest =>
    rw [eq_present_of_inputs s x rest hin] at h ⊢
    obtain rfl | ⟨op, e, he, hstep⟩ := stepWith_present cfg x
    · cases (stepWith_reset cfg _).symm.trans h
      exact .inr (.inl ⟨rfl, rfl⟩)
    rw [hstep] at h
    have hcase := effectCase_of_inputEffect he
    obtain ⟨ρ, -, hp⟩ | ⟨y, rfl, hclear, hp⟩ | ⟨c, rfl, hclear, hp⟩ | ⟨-, hset, hp⟩ := perform_cases op e _
    · cases hp.symm.trans h
    · cases hp.symm.trans h
      cases hcase with
      | answers _ _ _ hy => exact .inr (.inr (.inl ⟨hclear, y, hy, rfl⟩))
    · cases hp.symm.trans h
      cases hcase with
      | faults f _ _ hbreaks _ hname hcause =>
        exact .inr (.inr (.inr (.inr ⟨hclear, x, by simp, hbreaks, f, c, hcause, hname ▸ rfl⟩)))
    · cases hp.symm.trans h
      exact .inr (.inr (.inr (.inl ⟨hset, rfl⟩)))

/-- Settles O51: while FATAL = 1 a step idles, answers by the gate or takes reset. -/
theorem onlyResetClearsFatal : Obligations.OnlyResetClearsFatal := by
  intro s s' hset h
  rw [step_eq_stepWith] at h
  obtain ⟨-, rfl⟩ | ⟨hreset, -⟩ | ⟨hclear, -⟩ | ⟨-, rfl⟩ | ⟨hclear, -⟩ := stepWith_next_cases h
  · exact .inl ⟨hset, rfl⟩
  · exact .inr hreset
  · simp [hset] at hclear
  · exact .inl ⟨hset, rfl⟩
  · simp [hset] at hclear

/-- Settles O52: reset writes the latch and takes its own input. -/
theorem resetClearsTheLatch : Obligations.ResetClearsTheLatch :=
  ⟨fun s => ⟨_, step_reset s, rfl, rfl, rfl⟩, rfl, rfl⟩

/-- Settles O59: a step that finds no input idles. -/
theorem stepWithoutInputKeepsLatch : Obligations.StepWithoutInputKeepsLatch := step_nothing

/-! The invariant of the latch (R15). -/

/-- Settles O54: FATAL = 0 and no cause. -/
theorem resetLatchConsistent : Obligations.ResetLatchConsistent := rfl

/-- Every step of any instance keeps the latch consistent: only fault entry writes a cause, one its setter can raise. -/
theorem latchConsistent_of_stepWith {cfg : Config} {s s' : State} (hs : s.latchConsistent = true)
    (h : stepWith cfg s = .next s') : s'.latchConsistent = true := by
  obtain ⟨-, rfl⟩ | ⟨-, rfl⟩ | ⟨-, y, -, rfl⟩ | ⟨-, rfl⟩ | ⟨-, -, -, -, f, c, hcause, rfl⟩ := stepWith_next_cases h
  · exact hs
  · rfl
  · exact hs
  · exact hs
  · simp [State.latchConsistent, causeLegal, hcause]

/-- Settles O53: the default instance's step is one of the configured ones. -/
theorem stepKeepsLatchConsistent : Obligations.StepKeepsLatchConsistent := by
  intro s s' hs h
  rw [step_eq_stepWith] at h
  exact latchConsistent_of_stepWith hs h

/-! Runs (R184). -/

/-- What every step keeps, every run that gives a state keeps. -/
theorem run_keeps {M : Host.Core} {P : M.State → Prop} (hstep : ∀ s s', P s → M.step s = .next s' → P s') (k : Nat)
    {s s' : M.State} (hs : P s) (h : M.run k s = .next s') : P s' := by
  induction k generalizing s with
  | zero =>
    cases h
    exact hs
  | succ k ih =>
    rw [Host.Core.run] at h
    split at h
    · rename_i s1 h1
      exact ih (hstep s s1 hs h1) h
    · cases h
    · cases h

/-- No fault has been met and none is asked for: the latch is clear, the last answer is no fault, and every waiting
input keeps its setter contract. -/
def faultFree (s : State) : Prop :=
  s.fatal = false ∧ s.response ≠ some .fault ∧ ∀ x ∈ s.inputs, keepsContract x = true

theorem faultFree_of_stepWith {cfg : Config} {s s' : State} (hs : faultFree s) (h : stepWith cfg s = .next s') :
    faultFree s' := by
  obtain ⟨hclear, -, hkeeps⟩ := hs
  have htail : ∀ x ∈ s.inputs.tail, keepsContract x = true := fun x hx => hkeeps x (List.mem_of_mem_tail hx)
  obtain ⟨-, rfl⟩ | ⟨-, rfl⟩ | ⟨-, y, hy, rfl⟩ | ⟨hset, -⟩ | ⟨-, x, hx, hbreaks, -⟩ := stepWith_next_cases h
  · exact ⟨hclear, by simp, hkeeps⟩
  · exact ⟨rfl, by simp, htail⟩
  · exact ⟨hclear, by simpa using hy, htail⟩
  · simp [hclear] at hset
  · simp [hkeeps x hx] at hbreaks

/-- Settles O57: each step takes one of the inputs, which keeps its contract, so neither fault entry nor the gate
answers. -/
theorem contractKeepingRunsNeverFault : Obligations.ContractKeepingRunsNeverFault := by
  intro k s s' hclear hresponse hkeeps h
  have hstep : ∀ a b : State, faultFree a → step a = .next b → faultFree b := fun a b ha hab =>
    faultFree_of_stepWith ha ((step_eq_stepWith a).symm.trans hab)
  obtain ⟨hclear', hresponse', -⟩ := run_keeps (M := Sys2Proof.core) hstep k ⟨hclear, hresponse, hkeeps⟩ h
  exact ⟨hclear', hresponse'⟩

end Sys2Proof.Machine
end

section
/-! PROOFS. The step and its operations (10_state.md R12, R17; 40_framework.md R51, R52, R55; 41_validate_classify.md R88;
42_event_fields.md R136). -/

namespace Sys2Proof.Machine

open Sys2Proof.Statements

/-! Requests that are no operation (R88, R136, R156). -/

/-- Under the default table an operation on a record is refused as its own effect says, in every state. -/
theorem exec_of_refuse {i : Instr} {op : TypeOp} {ρ : Refusal}
    (h : ∀ tag, typedEffect Config.default i.type tag (encode i) op = .refuse ρ) (s : State) (t : RecType) (w : Raw) :
    exec i (s.present (.onType op t w)) = .refused ρ := by
  obtain ⟨tag, -, he⟩ := typeEffect_default i.type (encode i) op
  rw [exec_onType, he, h tag, perform_refuse]

/-- Settles O18: TRY and WRAP ask which variant the type is, and it is none. -/
theorem nonEventValidatorNotSpecified : Obligations.NonEventValidatorNotSpecified := by
  intro i s t w hevent
  exact ⟨exec_of_refuse (fun _ => by simp [typedEffect, hevent]) s t w,
    exec_of_refuse (fun _ => by simp [typedEffect, hevent]) s t w⟩

/-- Settles O19: getters and setters ask whether the type has the field. -/
theorem fieldOfAnotherTypeRefused : Obligations.FieldOfAnotherTypeRefused := by
  intro i s t w f v howner
  exact ⟨exec_of_refuse (fun _ => by simp [typedEffect, howner]) s t w,
    exec_of_refuse (fun _ => by simp [typedEffect, SetterCall.appliesTo, howner, SetterCall.name]) s t w⟩

/-! The cycle bit and the type of a record (R51, R52, R55). -/

/-- Settles O21: both operations are of every type, and SET.C keeps the 31 bits above. -/
theorem cycleBitAccess : Obligations.CycleBitAccess := by
  intro i b
  refine ⟨typeOpAnswers_of_typedEffect fun _ _ => rfl, ?_⟩
  rw [← setCycle_eq]
  exact typeOpAnswers_set rfl rfl

/-- Settles O23: TYPE_OF answers with the lookup of the tag. -/
theorem typeOfAnswers : Obligations.TypeOfAnswers := by
  intro s w hclear
  simp only [step_eq_stepWith]
  refine ⟨fun t ht => stepWith_typeOf_of_typeTable Config.default_admissible hclear ht, fun hnone => ?_⟩
  refine stepWith_onRaw_of_responds hclear ?_
  rw [rawEffect, (typeOfTag_eq_none _ (tagOf w)).2 hnone]
  rfl

/-! What a step runs (R12), and the configured machine (R17). -/

/-- Settles O58: each equation is a branch of the fetch. -/
theorem stepRunsTheDecodedRecord : Obligations.StepRunsTheDecodedRecord := by
  refine ⟨fun s op w i hi => ?_, fun _ _ _ _ => rfl, fun _ _ _ _ => rfl, fun s op w e he => ?_⟩
  · simp [step, stepBy, fetch, hi]
  · simp [step, stepBy, fetch, he]

/-- Settles O60: NEW.T stamps the tag of the table, and a name without a tag is refused before the operation is looked
at. -/
theorem configuredMachine : Obligations.ConfiguredMachine := by
  refine ⟨exec_eq_execWith, step_eq_stepWith,
    fun cfg i tag ht => typeOpAnswersWith_of_typedEffect ht rfl, fun cfg i s op t w hnone => ?_⟩
  obtain ⟨-, he⟩ | ⟨tag, ht, -⟩ := typeEffect_eq cfg i.type (encode i) op
  · rw [execWith_onType, he, perform_refuse]
  · cases hnone.symm.trans ht

end Sys2Proof.Machine
end
